-- ==== Sys2Proof/Word.lean ====
section
/-! DEFINITION. The word types of the typeberry PVM core (00_scope.md R7 to R9, R21). -/

namespace Sys2Proof

/-- One byte of code or data (R21). -/
abbrev Byte := BitVec 8

/-- A 32-bit `MemoryIndex`, and also a code offset: both are taken modulo 2^32 (R9, R37). -/
abbrev Addr := BitVec 32

/-- The 64 bits of a register or of a decoded immediate (R8, R27). -/
abbrev Word := BitVec 64

/-- A register index 0..12 (R7, R30). -/
abbrev Reg := Fin 13

end Sys2Proof
end

