-- ==== Sys2Proof/Config.lean ====
section
/-! DEFINITION. What the spec leaves to an implementation, and the free values: constants without a body, so that
no proof can see which value they have. The parameters whose values the spec gives stand in Machine/Params.lean. -/

namespace Sys2Proof

/-- The two policies the spec allows for an sbrk request that cannot be met (R19, R71, R277, D5). -/
inductive SbrkOomPolicy where
  /-- `x[rD] <- 0`, and nothing else changes. -/
  | returnZero
  /-- The step ends in PANIC. -/
  | panic
deriving DecidableEq, Repr, Inhabited

/-- SBRK_OOM_POLICY: the spec leaves it OPEN, so every proof about it holds for both policies (R19, D5; log 5). -/
opaque Config.sbrkOomPolicy : SbrkOomPolicy

/-- The free values: the n-th value that the spec leaves unspecified. The only use is the destination register of a
faulting load, which is "any 64-bit value" (R218, U3; log 4). -/
opaque Config.freeValue : Nat → Word

end Sys2Proof
end

