-- ==== Sys2Proof/Machine/Bytes.lean ====
section
/-! DEFINITION. Little-endian byte strings, sign extension and the views of a word (00_scope.md R21 to R23, R27). -/

namespace Sys2Proof

/-- The low n bytes of v, least significant first (R21, R60). -/
def leBytes : Nat → Nat → List Byte
  | 0, _ => []
  | n + 1, v => BitVec.ofNat 8 v :: leBytes n (v / 256)

/-- The unsigned value of a little-endian byte string: the sum of b_k * 2^(8k) (R21, R32). -/
def leValue : List Byte → Nat
  | [] => 0
  | b :: bs => b.toNat + 256 * leValue bs

/-- Sign-extension of the low l bytes of v to 64 bits; 0 for l = 0 (R87). -/
def sextBytes (l v : Nat) : Word := (BitVec.ofNat (8 * l) v).signExtend 64

/-- The 64-bit value v is one that an immediate field of l bytes can hold (R87). -/
def immFits (l : Nat) (v : Word) : Bool := sextBytes l v.toNat == v

/-- `u32(v) = v mod 2^32` (R22). -/
def u32 (v : Word) : BitVec 32 := v.setWidth 32

/-- `X4`: sign-extension of a 32-bit result to 64 bits (R22). -/
def x4 (v : BitVec 32) : Word := v.signExtend 64

/-- `s64(v)`: v read as two's complement (R22). -/
def s64 (v : Word) : Int := v.toInt

/-- `s32(v)`: `u32(v)` read as two's complement (R22). -/
def s32 (v : Word) : Int := (u32 v).toInt

/-- `to64(i) = i mod 2^64` for i in [-2^63, 2^64) (R22); the one use with other i is `setI64` (log 19). -/
def to64 (i : Int) : Word := BitVec.ofInt 64 i

/-- `sext_N(v)`: the low N bits of v, sign-extended to 64 bits (R22). -/
def sextN (n : Nat) (v : Word) : Word := (v.setWidth n).signExtend 64

/-- `zext_N(v) = v mod 2^N` (R22). -/
def zextN (n : Nat) (v : Word) : Word := (v.setWidth n).setWidth 64

end Sys2Proof
end

