-- ==== Sys2Proof/Machine/Params.lean ====
section
/-! DEFINITION. The implementation parameters with the values the spec gives them (00_scope.md section 3). Each is a
definition of its own, so that another value can be supplied in one place (log 10). -/

namespace Sys2Proof.Config

/-- PAGE_SHIFT (R10). -/
def pageShift : Nat := 14

/-- PAGE_SIZE = 2^PAGE_SHIFT bytes (R10). -/
def pageSize : Nat := 2 ^ pageShift

/-- MEM_SIZE = 2^32 bytes of data address space (R9). -/
def memSize : Nat := 2 ^ 32

/-- NUM_PAGES = MEM_SIZE / PAGE_SIZE (R10). -/
def numPages : Nat := memSize / pageSize

/-- JUMP_ALIGN (R11). -/
def jumpAlign : Nat := 2

/-- HALT_ADDRESS = 2^32 - 2^16 (R12). -/
def haltAddress : Addr := 0xFFFF0000#32

/-- MAX_IMM_BYTES: a variable-length immediate has 0 to 4 bytes (R13). -/
def maxImmBytes : Nat := 4

/-- SKIP_CAP: at most 24 argument bytes follow an opcode (R14). -/
def skipCap : Nat := 24

/-- GAS_COST: the table of gas costs by opcode byte, 1 for every byte, the unknown ones too (R15, D2). -/
def gasCost (_opcode : Byte) : Word := 1#64

/-- GAS_MAX = 2^64 - 1 (R16). -/
def gasMax : Nat := 2 ^ 64 - 1

/-- The opcode byte of `trap`, whose cost a memory fault is charged (R113, R254). -/
def trapOpcode : Byte := 0#8

/-- REG_CLAMP: a register field above 12 selects register 12 (R18, R86). -/
def regOfField (n : Nat) : Reg := ⟨min 12 n, by omega⟩

end Sys2Proof.Config
end

