-- ==== Sys2Proof/Syntax.lean ====
section
/-! DEFINITION. The program image, the operand record of each argument shape, and the instructions: one constructor
for each of the 139 rows of spec/opcode_table.json (30_encoding.md R89 to R103). -/

namespace Sys2Proof

/-- The program image: code bytes, one mask bit for each code byte, and the jump table of 32-bit code offsets
(R20, R48, R121). It is fixed from one reset to the next (R81, R307). -/
structure Program where
  /-- The code bytes. -/
  code : List Byte
  /-- Bit n is true where offset n begins an instruction. -/
  mask : List Bool
  /-- The jump table's destinations. -/
  jumpTable : List Addr
deriving DecidableEq, Repr

/-- The thirteen argument shapes (R89 to R101). -/
inductive Shape where
  /-- NO_ARGUMENTS (R89). -/
  | noArgs
  /-- ONE_IMMEDIATE (R90). -/
  | oneImm
  /-- ONE_REGISTER_ONE_EXTENDED_WIDTH_IMMEDIATE (R91). -/
  | regExtImm
  /-- TWO_IMMEDIATES (R92). -/
  | twoImms
  /-- ONE_OFFSET (R93). -/
  | oneOffset
  /-- ONE_REGISTER_ONE_IMMEDIATE (R94). -/
  | regImm
  /-- ONE_REGISTER_TWO_IMMEDIATES (R95). -/
  | regTwoImms
  /-- ONE_REGISTER_ONE_IMMEDIATE_ONE_OFFSET (R96). -/
  | regImmOffset
  /-- TWO_REGISTERS (R97). -/
  | twoRegs
  /-- TWO_REGISTERS_ONE_IMMEDIATE (R98). -/
  | twoRegsImm
  /-- TWO_REGISTERS_ONE_OFFSET (R99). -/
  | twoRegsOffset
  /-- TWO_REGISTERS_TWO_IMMEDIATES (R100). -/
  | twoRegsTwoImms
  /-- THREE_REGISTERS (R101). -/
  | threeRegs
deriving DecidableEq, Repr

/-- The decoder's operand record: the shape's tag with exactly the fields its rule lists (R102). A branch target is held
as the absolute code offset (R88; log 11). -/
inductive Args where
  /-- NO_ARGUMENTS (R89). -/
  | noArgs
  /-- ONE_IMMEDIATE (R90). -/
  | oneImm (immX : Word)
  /-- ONE_REGISTER_ONE_EXTENDED_WIDTH_IMMEDIATE (R91). -/
  | regExtImm (rA : Reg) (immX : Word)
  /-- TWO_IMMEDIATES (R92). -/
  | twoImms (immX immY : Word)
  /-- ONE_OFFSET (R93). -/
  | oneOffset (target : Addr)
  /-- ONE_REGISTER_ONE_IMMEDIATE (R94). -/
  | regImm (rA : Reg) (immX : Word)
  /-- ONE_REGISTER_TWO_IMMEDIATES (R95). -/
  | regTwoImms (rA : Reg) (immX immY : Word)
  /-- ONE_REGISTER_ONE_IMMEDIATE_ONE_OFFSET (R96). -/
  | regImmOffset (rA : Reg) (immX : Word) (target : Addr)
  /-- TWO_REGISTERS (R97). -/
  | twoRegs (rD rA : Reg)
  /-- TWO_REGISTERS_ONE_IMMEDIATE (R98). -/
  | twoRegsImm (rA rB : Reg) (immX : Word)
  /-- TWO_REGISTERS_ONE_OFFSET (R99). -/
  | twoRegsOffset (rA rB : Reg) (target : Addr)
  /-- TWO_REGISTERS_TWO_IMMEDIATES (R100). -/
  | twoRegsTwoImms (rA rB : Reg) (immX immY : Word)
  /-- THREE_REGISTERS (R101). -/
  | threeRegs (rD rA rB : Reg)
deriving DecidableEq, Repr

/-- The instructions, with decoded operands: registers already clamped to 0..12 (R86), immediates as 64-bit values
(R27), branch targets as absolute code offsets (R88). The 117 unassigned opcode bytes have no constructor: they decode
to `trap` (R104). -/
inductive Instr where
  /-- `trap`, opcode 0 (R254). -/
  | trap
  /-- `fallthrough`, opcode 1 (R255). -/
  | fallthrough
  /-- `ecalli`, opcode 10 (R278). -/
  | ecalli (immX : Word)
  /-- `load_imm_64`, opcode 20 (R215). -/
  | loadImm64 (rA : Reg) (immX : Word)
  /-- `store_imm_u8`, opcode 30 (R243). -/
  | storeImmU8 (immX immY : Word)
  /-- `store_imm_u16`, opcode 31 (R244). -/
  | storeImmU16 (immX immY : Word)
  /-- `store_imm_u32`, opcode 32 (R245). -/
  | storeImmU32 (immX immY : Word)
  /-- `store_imm_u64`, opcode 33 (R246). -/
  | storeImmU64 (immX immY : Word)
  /-- `jump`, opcode 40 (R256). -/
  | jump (target : Addr)
  /-- `jump_ind`, opcode 50 (R257). -/
  | jumpInd (rA : Reg) (immX : Word)
  /-- `load_imm`, opcode 51 (R214). -/
  | loadImm (rA : Reg) (immX : Word)
  /-- `load_u8`, opcode 52 (R221). -/
  | loadU8 (rA : Reg) (immX : Word)
  /-- `load_i8`, opcode 53 (R222). -/
  | loadI8 (rA : Reg) (immX : Word)
  /-- `load_u16`, opcode 54 (R223). -/
  | loadU16 (rA : Reg) (immX : Word)
  /-- `load_i16`, opcode 55 (R224). -/
  | loadI16 (rA : Reg) (immX : Word)
  /-- `load_u32`, opcode 56 (R225). -/
  | loadU32 (rA : Reg) (immX : Word)
  /-- `load_i32`, opcode 57 (R226). -/
  | loadI32 (rA : Reg) (immX : Word)
  /-- `load_u64`, opcode 58 (R227). -/
  | loadU64 (rA : Reg) (immX : Word)
  /-- `store_u8`, opcode 59 (R235). -/
  | storeU8 (rA : Reg) (immX : Word)
  /-- `store_u16`, opcode 60 (R236). -/
  | storeU16 (rA : Reg) (immX : Word)
  /-- `store_u32`, opcode 61 (R237). -/
  | storeU32 (rA : Reg) (immX : Word)
  /-- `store_u64`, opcode 62 (R238). -/
  | storeU64 (rA : Reg) (immX : Word)
  /-- `store_imm_ind_u8`, opcode 70 (R247). -/
  | storeImmIndU8 (rA : Reg) (immX immY : Word)
  /-- `store_imm_ind_u16`, opcode 71 (R248). -/
  | storeImmIndU16 (rA : Reg) (immX immY : Word)
  /-- `store_imm_ind_u32`, opcode 72 (R249). -/
  | storeImmIndU32 (rA : Reg) (immX immY : Word)
  /-- `store_imm_ind_u64`, opcode 73 (R250). -/
  | storeImmIndU64 (rA : Reg) (immX immY : Word)
  /-- `load_imm_jump`, opcode 80 (R258). -/
  | loadImmJump (rA : Reg) (immX : Word) (target : Addr)
  /-- `branch_eq_imm`, opcode 81 (R260). -/
  | branchEqImm (rA : Reg) (immX : Word) (target : Addr)
  /-- `branch_ne_imm`, opcode 82 (R261). -/
  | branchNeImm (rA : Reg) (immX : Word) (target : Addr)
  /-- `branch_lt_u_imm`, opcode 83 (R262). -/
  | branchLtUImm (rA : Reg) (immX : Word) (target : Addr)
  /-- `branch_le_u_imm`, opcode 84 (R263). -/
  | branchLeUImm (rA : Reg) (immX : Word) (target : Addr)
  /-- `branch_ge_u_imm`, opcode 85 (R264). -/
  | branchGeUImm (rA : Reg) (immX : Word) (target : Addr)
  /-- `branch_gt_u_imm`, opcode 86 (R265). -/
  | branchGtUImm (rA : Reg) (immX : Word) (target : Addr)
  /-- `branch_lt_s_imm`, opcode 87 (R266). -/
  | branchLtSImm (rA : Reg) (immX : Word) (target : Addr)
  /-- `branch_le_s_imm`, opcode 88 (R267). -/
  | branchLeSImm (rA : Reg) (immX : Word) (target : Addr)
  /-- `branch_ge_s_imm`, opcode 89 (R268). -/
  | branchGeSImm (rA : Reg) (immX : Word) (target : Addr)
  /-- `branch_gt_s_imm`, opcode 90 (R269). -/
  | branchGtSImm (rA : Reg) (immX : Word) (target : Addr)
  /-- `move_reg`, opcode 100 (R209). -/
  | moveReg (rD rA : Reg)
  /-- `sbrk`, opcode 101 (R279). -/
  | sbrk (rD rA : Reg)
  /-- `count_set_bits_64`, opcode 102 (R191). -/
  | countSetBits64 (rD rA : Reg)
  /-- `count_set_bits_32`, opcode 103 (R192). -/
  | countSetBits32 (rD rA : Reg)
  /-- `leading_zero_bits_64`, opcode 104 (R193). -/
  | leadingZeroBits64 (rD rA : Reg)
  /-- `leading_zero_bits_32`, opcode 105 (R194). -/
  | leadingZeroBits32 (rD rA : Reg)
  /-- `trailing_zero_bits_64`, opcode 106 (R195). -/
  | trailingZeroBits64 (rD rA : Reg)
  /-- `trailing_zero_bits_32`, opcode 107 (R196). -/
  | trailingZeroBits32 (rD rA : Reg)
  /-- `sign_extend_8`, opcode 108 (R197). -/
  | signExtend8 (rD rA : Reg)
  /-- `sign_extend_16`, opcode 109 (R198). -/
  | signExtend16 (rD rA : Reg)
  /-- `zero_extend_16`, opcode 110 (R199). -/
  | zeroExtend16 (rD rA : Reg)
  /-- `reverse_bytes`, opcode 111 (R200). -/
  | reverseBytes (rD rA : Reg)
  /-- `store_ind_u8`, opcode 120 (R239). -/
  | storeIndU8 (rA rB : Reg) (immX : Word)
  /-- `store_ind_u16`, opcode 121 (R240). -/
  | storeIndU16 (rA rB : Reg) (immX : Word)
  /-- `store_ind_u32`, opcode 122 (R241). -/
  | storeIndU32 (rA rB : Reg) (immX : Word)
  /-- `store_ind_u64`, opcode 123 (R242). -/
  | storeIndU64 (rA rB : Reg) (immX : Word)
  /-- `load_ind_u8`, opcode 124 (R228). -/
  | loadIndU8 (rA rB : Reg) (immX : Word)
  /-- `load_ind_i8`, opcode 125 (R229). -/
  | loadIndI8 (rA rB : Reg) (immX : Word)
  /-- `load_ind_u16`, opcode 126 (R230). -/
  | loadIndU16 (rA rB : Reg) (immX : Word)
  /-- `load_ind_i16`, opcode 127 (R231). -/
  | loadIndI16 (rA rB : Reg) (immX : Word)
  /-- `load_ind_u32`, opcode 128 (R232). -/
  | loadIndU32 (rA rB : Reg) (immX : Word)
  /-- `load_ind_i32`, opcode 129 (R233). -/
  | loadIndI32 (rA rB : Reg) (immX : Word)
  /-- `load_ind_u64`, opcode 130 (R234). -/
  | loadIndU64 (rA rB : Reg) (immX : Word)
  /-- `add_imm_32`, opcode 131 (R126). -/
  | addImm32 (rA rB : Reg) (immX : Word)
  /-- `and_imm`, opcode 132 (R156). -/
  | andImm (rA rB : Reg) (immX : Word)
  /-- `xor_imm`, opcode 133 (R157). -/
  | xorImm (rA rB : Reg) (immX : Word)
  /-- `or_imm`, opcode 134 (R158). -/
  | orImm (rA rB : Reg) (immX : Word)
  /-- `mul_imm_32`, opcode 135 (R127). -/
  | mulImm32 (rA rB : Reg) (immX : Word)
  /-- `set_lt_u_imm`, opcode 136 (R203). -/
  | setLtUImm (rA rB : Reg) (immX : Word)
  /-- `set_lt_s_imm`, opcode 137 (R204). -/
  | setLtSImm (rA rB : Reg) (immX : Word)
  /-- `shlo_l_imm_32`, opcode 138 (R165). -/
  | shloLImm32 (rA rB : Reg) (immX : Word)
  /-- `shlo_r_imm_32`, opcode 139 (R166). -/
  | shloRImm32 (rA rB : Reg) (immX : Word)
  /-- `shar_r_imm_32`, opcode 140 (R167). -/
  | sharRImm32 (rA rB : Reg) (immX : Word)
  /-- `neg_add_imm_32`, opcode 141 (R128). -/
  | negAddImm32 (rA rB : Reg) (immX : Word)
  /-- `set_gt_u_imm`, opcode 142 (R205). -/
  | setGtUImm (rA rB : Reg) (immX : Word)
  /-- `set_gt_s_imm`, opcode 143 (R206). -/
  | setGtSImm (rA rB : Reg) (immX : Word)
  /-- `shlo_l_imm_alt_32`, opcode 144 (R168). -/
  | shloLImmAlt32 (rA rB : Reg) (immX : Word)
  /-- `shlo_r_imm_alt_32`, opcode 145 (R169). -/
  | shloRImmAlt32 (rA rB : Reg) (immX : Word)
  /-- `shar_r_imm_alt_32`, opcode 146 (R170). -/
  | sharRImmAlt32 (rA rB : Reg) (immX : Word)
  /-- `cmov_iz_imm`, opcode 147 (R210). -/
  | cmovIzImm (rA rB : Reg) (immX : Word)
  /-- `cmov_nz_imm`, opcode 148 (R211). -/
  | cmovNzImm (rA rB : Reg) (immX : Word)
  /-- `add_imm_64`, opcode 149 (R129). -/
  | addImm64 (rA rB : Reg) (immX : Word)
  /-- `mul_imm_64`, opcode 150 (R130). -/
  | mulImm64 (rA rB : Reg) (immX : Word)
  /-- `shlo_l_imm_64`, opcode 151 (R171). -/
  | shloLImm64 (rA rB : Reg) (immX : Word)
  /-- `shlo_r_imm_64`, opcode 152 (R172). -/
  | shloRImm64 (rA rB : Reg) (immX : Word)
  /-- `shar_r_imm_64`, opcode 153 (R173). -/
  | sharRImm64 (rA rB : Reg) (immX : Word)
  /-- `neg_add_imm_64`, opcode 154 (R131). -/
  | negAddImm64 (rA rB : Reg) (immX : Word)
  /-- `shlo_l_imm_alt_64`, opcode 155 (R174). -/
  | shloLImmAlt64 (rA rB : Reg) (immX : Word)
  /-- `shlo_r_imm_alt_64`, opcode 156 (R175). -/
  | shloRImmAlt64 (rA rB : Reg) (immX : Word)
  /-- `shar_r_imm_alt_64`, opcode 157 (R176). -/
  | sharRImmAlt64 (rA rB : Reg) (immX : Word)
  /-- `rot_r_64_imm`, opcode 158 (R183). -/
  | rotR64Imm (rA rB : Reg) (immX : Word)
  /-- `rot_r_64_imm_alt`, opcode 159 (R184). -/
  | rotR64ImmAlt (rA rB : Reg) (immX : Word)
  /-- `rot_r_32_imm`, opcode 160 (R185). -/
  | rotR32Imm (rA rB : Reg) (immX : Word)
  /-- `rot_r_32_imm_alt`, opcode 161 (R186). -/
  | rotR32ImmAlt (rA rB : Reg) (immX : Word)
  /-- `branch_eq`, opcode 170 (R270). -/
  | branchEq (rA rB : Reg) (target : Addr)
  /-- `branch_ne`, opcode 171 (R271). -/
  | branchNe (rA rB : Reg) (target : Addr)
  /-- `branch_lt_u`, opcode 172 (R272). -/
  | branchLtU (rA rB : Reg) (target : Addr)
  /-- `branch_lt_s`, opcode 173 (R273). -/
  | branchLtS (rA rB : Reg) (target : Addr)
  /-- `branch_ge_u`, opcode 174 (R274). -/
  | branchGeU (rA rB : Reg) (target : Addr)
  /-- `branch_ge_s`, opcode 175 (R275). -/
  | branchGeS (rA rB : Reg) (target : Addr)
  /-- `load_imm_jump_ind`, opcode 180 (R259). -/
  | loadImmJumpInd (rA rB : Reg) (immX immY : Word)
  /-- `add_32`, opcode 190 (R132). -/
  | add32 (rD rA rB : Reg)
  /-- `sub_32`, opcode 191 (R133). -/
  | sub32 (rD rA rB : Reg)
  /-- `mul_32`, opcode 192 (R134). -/
  | mul32 (rD rA rB : Reg)
  /-- `div_u_32`, opcode 193 (R135). -/
  | divU32 (rD rA rB : Reg)
  /-- `div_s_32`, opcode 194 (R136). -/
  | divS32 (rD rA rB : Reg)
  /-- `rem_u_32`, opcode 195 (R137). -/
  | remU32 (rD rA rB : Reg)
  /-- `rem_s_32`, opcode 196 (R138). -/
  | remS32 (rD rA rB : Reg)
  /-- `shlo_l_32`, opcode 197 (R177). -/
  | shloL32 (rD rA rB : Reg)
  /-- `shlo_r_32`, opcode 198 (R178). -/
  | shloR32 (rD rA rB : Reg)
  /-- `shar_r_32`, opcode 199 (R179). -/
  | sharR32 (rD rA rB : Reg)
  /-- `add_64`, opcode 200 (R139). -/
  | add64 (rD rA rB : Reg)
  /-- `sub_64`, opcode 201 (R140). -/
  | sub64 (rD rA rB : Reg)
  /-- `mul_64`, opcode 202 (R141). -/
  | mul64 (rD rA rB : Reg)
  /-- `div_u_64`, opcode 203 (R142). -/
  | divU64 (rD rA rB : Reg)
  /-- `div_s_64`, opcode 204 (R143). -/
  | divS64 (rD rA rB : Reg)
  /-- `rem_u_64`, opcode 205 (R144). -/
  | remU64 (rD rA rB : Reg)
  /-- `rem_s_64`, opcode 206 (R145). -/
  | remS64 (rD rA rB : Reg)
  /-- `shlo_l_64`, opcode 207 (R180). -/
  | shloL64 (rD rA rB : Reg)
  /-- `shlo_r_64`, opcode 208 (R181). -/
  | shloR64 (rD rA rB : Reg)
  /-- `shar_r_64`, opcode 209 (R182). -/
  | sharR64 (rD rA rB : Reg)
  /-- `and`, opcode 210 (R159). -/
  | and (rD rA rB : Reg)
  /-- `xor`, opcode 211 (R160). -/
  | xor (rD rA rB : Reg)
  /-- `or`, opcode 212 (R161). -/
  | or (rD rA rB : Reg)
  /-- `mul_upper_s_s`, opcode 213 (R146). -/
  | mulUpperSS (rD rA rB : Reg)
  /-- `mul_upper_u_u`, opcode 214 (R147). -/
  | mulUpperUU (rD rA rB : Reg)
  /-- `mul_upper_s_u`, opcode 215 (R148). -/
  | mulUpperSU (rD rA rB : Reg)
  /-- `set_lt_u`, opcode 216 (R207). -/
  | setLtU (rD rA rB : Reg)
  /-- `set_lt_s`, opcode 217 (R208). -/
  | setLtS (rD rA rB : Reg)
  /-- `cmov_iz`, opcode 218 (R212). -/
  | cmovIz (rD rA rB : Reg)
  /-- `cmov_nz`, opcode 219 (R213). -/
  | cmovNz (rD rA rB : Reg)
  /-- `rot_l_64`, opcode 220 (R187). -/
  | rotL64 (rD rA rB : Reg)
  /-- `rot_l_32`, opcode 221 (R188). -/
  | rotL32 (rD rA rB : Reg)
  /-- `rot_r_64`, opcode 222 (R189). -/
  | rotR64 (rD rA rB : Reg)
  /-- `rot_r_32`, opcode 223 (R190). -/
  | rotR32 (rD rA rB : Reg)
  /-- `and_inv`, opcode 224 (R162). -/
  | andInv (rD rA rB : Reg)
  /-- `or_inv`, opcode 225 (R163). -/
  | orInv (rD rA rB : Reg)
  /-- `xnor`, opcode 226 (R164). -/
  | xnor (rD rA rB : Reg)
  /-- `max`, opcode 227 (R149). -/
  | max (rD rA rB : Reg)
  /-- `max_u`, opcode 228 (R150). -/
  | maxU (rD rA rB : Reg)
  /-- `min`, opcode 229 (R151). -/
  | min (rD rA rB : Reg)
  /-- `min_u`, opcode 230 (R152). -/
  | minU (rD rA rB : Reg)
deriving DecidableEq, Repr

/-- The operand record of an instruction, with its argument shape as the tag (R102, R103). -/
def Instr.args : Instr → Args
  | .trap => .noArgs
  | .fallthrough => .noArgs
  | .ecalli immX => .oneImm immX
  | .loadImm64 rA immX => .regExtImm rA immX
  | .storeImmU8 immX immY => .twoImms immX immY
  | .storeImmU16 immX immY => .twoImms immX immY
  | .storeImmU32 immX immY => .twoImms immX immY
  | .storeImmU64 immX immY => .twoImms immX immY
  | .jump target => .oneOffset target
  | .jumpInd rA immX => .regImm rA immX
  | .loadImm rA immX => .regImm rA immX
  | .loadU8 rA immX => .regImm rA immX
  | .loadI8 rA immX => .regImm rA immX
  | .loadU16 rA immX => .regImm rA immX
  | .loadI16 rA immX => .regImm rA immX
  | .loadU32 rA immX => .regImm rA immX
  | .loadI32 rA immX => .regImm rA immX
  | .loadU64 rA immX => .regImm rA immX
  | .storeU8 rA immX => .regImm rA immX
  | .storeU16 rA immX => .regImm rA immX
  | .storeU32 rA immX => .regImm rA immX
  | .storeU64 rA immX => .regImm rA immX
  | .storeImmIndU8 rA immX immY => .regTwoImms rA immX immY
  | .storeImmIndU16 rA immX immY => .regTwoImms rA immX immY
  | .storeImmIndU32 rA immX immY => .regTwoImms rA immX immY
  | .storeImmIndU64 rA immX immY => .regTwoImms rA immX immY
  | .loadImmJump rA immX target => .regImmOffset rA immX target
  | .branchEqImm rA immX target => .regImmOffset rA immX target
  | .branchNeImm rA immX target => .regImmOffset rA immX target
  | .branchLtUImm rA immX target => .regImmOffset rA immX target
  | .branchLeUImm rA immX target => .regImmOffset rA immX target
  | .branchGeUImm rA immX target => .regImmOffset rA immX target
  | .branchGtUImm rA immX target => .regImmOffset rA immX target
  | .branchLtSImm rA immX target => .regImmOffset rA immX target
  | .branchLeSImm rA immX target => .regImmOffset rA immX target
  | .branchGeSImm rA immX target => .regImmOffset rA immX target
  | .branchGtSImm rA immX target => .regImmOffset rA immX target
  | .moveReg rD rA => .twoRegs rD rA
  | .sbrk rD rA => .twoRegs rD rA
  | .countSetBits64 rD rA => .twoRegs rD rA
  | .countSetBits32 rD rA => .twoRegs rD rA
  | .leadingZeroBits64 rD rA => .twoRegs rD rA
  | .leadingZeroBits32 rD rA => .twoRegs rD rA
  | .trailingZeroBits64 rD rA => .twoRegs rD rA
  | .trailingZeroBits32 rD rA => .twoRegs rD rA
  | .signExtend8 rD rA => .twoRegs rD rA
  | .signExtend16 rD rA => .twoRegs rD rA
  | .zeroExtend16 rD rA => .twoRegs rD rA
  | .reverseBytes rD rA => .twoRegs rD rA
  | .storeIndU8 rA rB immX => .twoRegsImm rA rB immX
  | .storeIndU16 rA rB immX => .twoRegsImm rA rB immX
  | .storeIndU32 rA rB immX => .twoRegsImm rA rB immX
  | .storeIndU64 rA rB immX => .twoRegsImm rA rB immX
  | .loadIndU8 rA rB immX => .twoRegsImm rA rB immX
  | .loadIndI8 rA rB immX => .twoRegsImm rA rB immX
  | .loadIndU16 rA rB immX => .twoRegsImm rA rB immX
  | .loadIndI16 rA rB immX => .twoRegsImm rA rB immX
  | .loadIndU32 rA rB immX => .twoRegsImm rA rB immX
  | .loadIndI32 rA rB immX => .twoRegsImm rA rB immX
  | .loadIndU64 rA rB immX => .twoRegsImm rA rB immX
  | .addImm32 rA rB immX => .twoRegsImm rA rB immX
  | .andImm rA rB immX => .twoRegsImm rA rB immX
  | .xorImm rA rB immX => .twoRegsImm rA rB immX
  | .orImm rA rB immX => .twoRegsImm rA rB immX
  | .mulImm32 rA rB immX => .twoRegsImm rA rB immX
  | .setLtUImm rA rB immX => .twoRegsImm rA rB immX
  | .setLtSImm rA rB immX => .twoRegsImm rA rB immX
  | .shloLImm32 rA rB immX => .twoRegsImm rA rB immX
  | .shloRImm32 rA rB immX => .twoRegsImm rA rB immX
  | .sharRImm32 rA rB immX => .twoRegsImm rA rB immX
  | .negAddImm32 rA rB immX => .twoRegsImm rA rB immX
  | .setGtUImm rA rB immX => .twoRegsImm rA rB immX
  | .setGtSImm rA rB immX => .twoRegsImm rA rB immX
  | .shloLImmAlt32 rA rB immX => .twoRegsImm rA rB immX
  | .shloRImmAlt32 rA rB immX => .twoRegsImm rA rB immX
  | .sharRImmAlt32 rA rB immX => .twoRegsImm rA rB immX
  | .cmovIzImm rA rB immX => .twoRegsImm rA rB immX
  | .cmovNzImm rA rB immX => .twoRegsImm rA rB immX
  | .addImm64 rA rB immX => .twoRegsImm rA rB immX
  | .mulImm64 rA rB immX => .twoRegsImm rA rB immX
  | .shloLImm64 rA rB immX => .twoRegsImm rA rB immX
  | .shloRImm64 rA rB immX => .twoRegsImm rA rB immX
  | .sharRImm64 rA rB immX => .twoRegsImm rA rB immX
  | .negAddImm64 rA rB immX => .twoRegsImm rA rB immX
  | .shloLImmAlt64 rA rB immX => .twoRegsImm rA rB immX
  | .shloRImmAlt64 rA rB immX => .twoRegsImm rA rB immX
  | .sharRImmAlt64 rA rB immX => .twoRegsImm rA rB immX
  | .rotR64Imm rA rB immX => .twoRegsImm rA rB immX
  | .rotR64ImmAlt rA rB immX => .twoRegsImm rA rB immX
  | .rotR32Imm rA rB immX => .twoRegsImm rA rB immX
  | .rotR32ImmAlt rA rB immX => .twoRegsImm rA rB immX
  | .branchEq rA rB target => .twoRegsOffset rA rB target
  | .branchNe rA rB target => .twoRegsOffset rA rB target
  | .branchLtU rA rB target => .twoRegsOffset rA rB target
  | .branchLtS rA rB target => .twoRegsOffset rA rB target
  | .branchGeU rA rB target => .twoRegsOffset rA rB target
  | .branchGeS rA rB target => .twoRegsOffset rA rB target
  | .loadImmJumpInd rA rB immX immY => .twoRegsTwoImms rA rB immX immY
  | .add32 rD rA rB => .threeRegs rD rA rB
  | .sub32 rD rA rB => .threeRegs rD rA rB
  | .mul32 rD rA rB => .threeRegs rD rA rB
  | .divU32 rD rA rB => .threeRegs rD rA rB
  | .divS32 rD rA rB => .threeRegs rD rA rB
  | .remU32 rD rA rB => .threeRegs rD rA rB
  | .remS32 rD rA rB => .threeRegs rD rA rB
  | .shloL32 rD rA rB => .threeRegs rD rA rB
  | .shloR32 rD rA rB => .threeRegs rD rA rB
  | .sharR32 rD rA rB => .threeRegs rD rA rB
  | .add64 rD rA rB => .threeRegs rD rA rB
  | .sub64 rD rA rB => .threeRegs rD rA rB
  | .mul64 rD rA rB => .threeRegs rD rA rB
  | .divU64 rD rA rB => .threeRegs rD rA rB
  | .divS64 rD rA rB => .threeRegs rD rA rB
  | .remU64 rD rA rB => .threeRegs rD rA rB
  | .remS64 rD rA rB => .threeRegs rD rA rB
  | .shloL64 rD rA rB => .threeRegs rD rA rB
  | .shloR64 rD rA rB => .threeRegs rD rA rB
  | .sharR64 rD rA rB => .threeRegs rD rA rB
  | .and rD rA rB => .threeRegs rD rA rB
  | .xor rD rA rB => .threeRegs rD rA rB
  | .or rD rA rB => .threeRegs rD rA rB
  | .mulUpperSS rD rA rB => .threeRegs rD rA rB
  | .mulUpperUU rD rA rB => .threeRegs rD rA rB
  | .mulUpperSU rD rA rB => .threeRegs rD rA rB
  | .setLtU rD rA rB => .threeRegs rD rA rB
  | .setLtS rD rA rB => .threeRegs rD rA rB
  | .cmovIz rD rA rB => .threeRegs rD rA rB
  | .cmovNz rD rA rB => .threeRegs rD rA rB
  | .rotL64 rD rA rB => .threeRegs rD rA rB
  | .rotL32 rD rA rB => .threeRegs rD rA rB
  | .rotR64 rD rA rB => .threeRegs rD rA rB
  | .rotR32 rD rA rB => .threeRegs rD rA rB
  | .andInv rD rA rB => .threeRegs rD rA rB
  | .orInv rD rA rB => .threeRegs rD rA rB
  | .xnor rD rA rB => .threeRegs rD rA rB
  | .max rD rA rB => .threeRegs rD rA rB
  | .maxU rD rA rB => .threeRegs rD rA rB
  | .min rD rA rB => .threeRegs rD rA rB
  | .minU rD rA rB => .threeRegs rD rA rB

/-- The shape of an operand record. -/
def Args.shape : Args → Shape
  | .noArgs => .noArgs
  | .oneImm .. => .oneImm
  | .regExtImm .. => .regExtImm
  | .twoImms .. => .twoImms
  | .oneOffset .. => .oneOffset
  | .regImm .. => .regImm
  | .regTwoImms .. => .regTwoImms
  | .regImmOffset .. => .regImmOffset
  | .twoRegs .. => .twoRegs
  | .twoRegsImm .. => .twoRegsImm
  | .twoRegsOffset .. => .twoRegsOffset
  | .twoRegsTwoImms .. => .twoRegsTwoImms
  | .threeRegs .. => .threeRegs

end Sys2Proof
end

