-- ==== Sys2Proof/WellFormed.lean ====
section
/-! DEFINITION. The instructions an encoding can express: every variable-length immediate is the sign-extension of at
most four bytes (30_encoding.md R87, 00_scope.md R13). Register fields and targets are in range by their types, and the
8-byte immediate of `load_imm_64` can be any value (R91). -/

namespace Sys2Proof

/-- An immediate that a variable-length field can hold (R13, R87). -/
def immWellFormed (v : Word) : Bool := immFits Config.maxImmBytes v

/-- Every variable-length immediate of the record can be encoded. -/
def Args.wellFormed : Args → Bool
  | .noArgs => true
  | .oneImm immX => immWellFormed immX
  | .regExtImm _ _ => true
  | .twoImms immX immY => immWellFormed immX && immWellFormed immY
  | .oneOffset _ => true
  | .regImm _ immX => immWellFormed immX
  | .regTwoImms _ immX immY => immWellFormed immX && immWellFormed immY
  | .regImmOffset _ immX _ => immWellFormed immX
  | .twoRegs _ _ => true
  | .twoRegsImm _ _ immX => immWellFormed immX
  | .twoRegsOffset _ _ _ => true
  | .twoRegsTwoImms _ _ immX immY => immWellFormed immX && immWellFormed immY
  | .threeRegs _ _ _ => true

/-- A well-formed instruction. -/
def Instr.wellFormed (i : Instr) : Bool := i.args.wellFormed

end Sys2Proof
end

