-- ==== Sys2Proof/Decode.lean ====
section
/-! DEFINITION. The decoder and, after it, the encoder (30_encoding.md). The decoder is a total function of the program
image and the program counter (R102); no byte string is rejected (R105). -/

namespace Sys2Proof

/-! ### The instruction stream -/

/-- The code byte at offset k; 0 at or past the end of code (R83, R110). -/
def Program.codeByte (p : Program) (k : Nat) : Byte := p.code.getD k 0

/-- The mask bit at offset k; 1 at or past the end of code (R83). -/
def Program.maskBit (p : Program) (k : Nat) : Bool :=
  if k < p.code.length then p.mask.getD k true else true

/-- The number of offsets from k on before the first one whose mask bit is 1, but at most `fuel` (R84). -/
def Program.skipFrom (p : Program) : Nat → Nat → Nat
  | 0, _ => 0
  | fuel + 1, k => if p.maskBit k then 0 else 1 + p.skipFrom fuel (k + 1)

/-- `skip(n)`, the argument-byte count of the instruction at offset n, from the mask alone (R84). -/
def Program.skip (p : Program) (n : Nat) : Nat := p.skipFrom Config.skipCap (n + 1)

/-! ### Operand fields. `c k` is the code byte at pc + k (R82; log 12) -/

/-- The register in the low nibble of a byte (R86). -/
def regLo (b : Byte) : Reg := Config.regOfField (b.toNat % 16)

/-- The register in the high nibble of a byte (R86). -/
def regHi (b : Byte) : Reg := Config.regOfField (b.toNat / 16)

/-- The register a whole byte selects: rD of THREE_REGISTERS (R86, R101). -/
def regByte (b : Byte) : Reg := Config.regOfField b.toNat

/-- A length field: the low three bits of n, at most 4 (R92, R105). -/
def lenField (n : Nat) : Nat := min Config.maxImmBytes (n % 8)

/-- The length of the last variable-length field: what is left of the argument bytes, at most 4 (R90, R94). -/
def lenRest (n : Nat) : Nat := min Config.maxImmBytes n

/-- The n code bytes from position p on (R82). -/
def bytesAt (c : Nat → Byte) (p n : Nat) : List Byte := (List.range n).map (fun k => c (p + k))

/-- `imm(p, l)`: l bytes at position p, little-endian, sign-extended to 64 bits (R87). -/
def immAt (c : Nat → Byte) (p l : Nat) : Word := sextBytes l (leValue (bytesAt c p l))

/-- The 8-byte immediate at position 2, without extension (R87, R91). -/
def extImm (c : Nat → Byte) : Word := BitVec.ofNat 64 (leValue (bytesAt c 2 8))

/-- A branch target: pc plus the signed offset, modulo 2^32 (R88). -/
def relTarget (pc : Addr) (offset : Word) : Addr := pc + offset.setWidth 32

/-! ### The opcode map -/

/-- A row of OPCODE_MAP: the argument shape, with the instruction that the shape's fields make (R103). -/
inductive Row where
  /-- NO_ARGUMENTS (R89). -/
  | noArgs (mk : Instr)
  /-- ONE_IMMEDIATE (R90). -/
  | oneImm (mk : Word → Instr)
  /-- ONE_REGISTER_ONE_EXTENDED_WIDTH_IMMEDIATE (R91). -/
  | regExtImm (mk : Reg → Word → Instr)
  /-- TWO_IMMEDIATES (R92). -/
  | twoImms (mk : Word → Word → Instr)
  /-- ONE_OFFSET (R93). -/
  | oneOffset (mk : Addr → Instr)
  /-- ONE_REGISTER_ONE_IMMEDIATE (R94). -/
  | regImm (mk : Reg → Word → Instr)
  /-- ONE_REGISTER_TWO_IMMEDIATES (R95). -/
  | regTwoImms (mk : Reg → Word → Word → Instr)
  /-- ONE_REGISTER_ONE_IMMEDIATE_ONE_OFFSET (R96). -/
  | regImmOffset (mk : Reg → Word → Addr → Instr)
  /-- TWO_REGISTERS (R97). -/
  | twoRegs (mk : Reg → Reg → Instr)
  /-- TWO_REGISTERS_ONE_IMMEDIATE (R98). -/
  | twoRegsImm (mk : Reg → Reg → Word → Instr)
  /-- TWO_REGISTERS_ONE_OFFSET (R99). -/
  | twoRegsOffset (mk : Reg → Reg → Addr → Instr)
  /-- TWO_REGISTERS_TWO_IMMEDIATES (R100). -/
  | twoRegsTwoImms (mk : Reg → Reg → Word → Word → Instr)
  /-- THREE_REGISTERS (R101). -/
  | threeRegs (mk : Reg → Reg → Reg → Instr)

/-- The shape of a row (R103). -/
def Row.shape : Row → Shape
  | .noArgs _ => .noArgs
  | .oneImm _ => .oneImm
  | .regExtImm _ => .regExtImm
  | .twoImms _ => .twoImms
  | .oneOffset _ => .oneOffset
  | .regImm _ => .regImm
  | .regTwoImms _ => .regTwoImms
  | .regImmOffset _ => .regImmOffset
  | .twoRegs _ => .twoRegs
  | .twoRegsImm _ => .twoRegsImm
  | .twoRegsOffset _ => .twoRegsOffset
  | .twoRegsTwoImms _ => .twoRegsTwoImms
  | .threeRegs _ => .threeRegs

/-- OPCODE_MAP, indexed by the opcode byte: the static opcode to shape table with the instruction each opcode selects
(R17, R103). An unassigned opcode has the shape of no arguments and is a trap (R104). -/
def opcodeMap : Nat → Row
  | 0 => .noArgs Instr.trap
  | 1 => .noArgs Instr.fallthrough
  | 10 => .oneImm Instr.ecalli
  | 20 => .regExtImm Instr.loadImm64
  | 30 => .twoImms Instr.storeImmU8
  | 31 => .twoImms Instr.storeImmU16
  | 32 => .twoImms Instr.storeImmU32
  | 33 => .twoImms Instr.storeImmU64
  | 40 => .oneOffset Instr.jump
  | 50 => .regImm Instr.jumpInd
  | 51 => .regImm Instr.loadImm
  | 52 => .regImm Instr.loadU8
  | 53 => .regImm Instr.loadI8
  | 54 => .regImm Instr.loadU16
  | 55 => .regImm Instr.loadI16
  | 56 => .regImm Instr.loadU32
  | 57 => .regImm Instr.loadI32
  | 58 => .regImm Instr.loadU64
  | 59 => .regImm Instr.storeU8
  | 60 => .regImm Instr.storeU16
  | 61 => .regImm Instr.storeU32
  | 62 => .regImm Instr.storeU64
  | 70 => .regTwoImms Instr.storeImmIndU8
  | 71 => .regTwoImms Instr.storeImmIndU16
  | 72 => .regTwoImms Instr.storeImmIndU32
  | 73 => .regTwoImms Instr.storeImmIndU64
  | 80 => .regImmOffset Instr.loadImmJump
  | 81 => .regImmOffset Instr.branchEqImm
  | 82 => .regImmOffset Instr.branchNeImm
  | 83 => .regImmOffset Instr.branchLtUImm
  | 84 => .regImmOffset Instr.branchLeUImm
  | 85 => .regImmOffset Instr.branchGeUImm
  | 86 => .regImmOffset Instr.branchGtUImm
  | 87 => .regImmOffset Instr.branchLtSImm
  | 88 => .regImmOffset Instr.branchLeSImm
  | 89 => .regImmOffset Instr.branchGeSImm
  | 90 => .regImmOffset Instr.branchGtSImm
  | 100 => .twoRegs Instr.moveReg
  | 101 => .twoRegs Instr.sbrk
  | 102 => .twoRegs Instr.countSetBits64
  | 103 => .twoRegs Instr.countSetBits32
  | 104 => .twoRegs Instr.leadingZeroBits64
  | 105 => .twoRegs Instr.leadingZeroBits32
  | 106 => .twoRegs Instr.trailingZeroBits64
  | 107 => .twoRegs Instr.trailingZeroBits32
  | 108 => .twoRegs Instr.signExtend8
  | 109 => .twoRegs Instr.signExtend16
  | 110 => .twoRegs Instr.zeroExtend16
  | 111 => .twoRegs Instr.reverseBytes
  | 120 => .twoRegsImm Instr.storeIndU8
  | 121 => .twoRegsImm Instr.storeIndU16
  | 122 => .twoRegsImm Instr.storeIndU32
  | 123 => .twoRegsImm Instr.storeIndU64
  | 124 => .twoRegsImm Instr.loadIndU8
  | 125 => .twoRegsImm Instr.loadIndI8
  | 126 => .twoRegsImm Instr.loadIndU16
  | 127 => .twoRegsImm Instr.loadIndI16
  | 128 => .twoRegsImm Instr.loadIndU32
  | 129 => .twoRegsImm Instr.loadIndI32
  | 130 => .twoRegsImm Instr.loadIndU64
  | 131 => .twoRegsImm Instr.addImm32
  | 132 => .twoRegsImm Instr.andImm
  | 133 => .twoRegsImm Instr.xorImm
  | 134 => .twoRegsImm Instr.orImm
  | 135 => .twoRegsImm Instr.mulImm32
  | 136 => .twoRegsImm Instr.setLtUImm
  | 137 => .twoRegsImm Instr.setLtSImm
  | 138 => .twoRegsImm Instr.shloLImm32
  | 139 => .twoRegsImm Instr.shloRImm32
  | 140 => .twoRegsImm Instr.sharRImm32
  | 141 => .twoRegsImm Instr.negAddImm32
  | 142 => .twoRegsImm Instr.setGtUImm
  | 143 => .twoRegsImm Instr.setGtSImm
  | 144 => .twoRegsImm Instr.shloLImmAlt32
  | 145 => .twoRegsImm Instr.shloRImmAlt32
  | 146 => .twoRegsImm Instr.sharRImmAlt32
  | 147 => .twoRegsImm Instr.cmovIzImm
  | 148 => .twoRegsImm Instr.cmovNzImm
  | 149 => .twoRegsImm Instr.addImm64
  | 150 => .twoRegsImm Instr.mulImm64
  | 151 => .twoRegsImm Instr.shloLImm64
  | 152 => .twoRegsImm Instr.shloRImm64
  | 153 => .twoRegsImm Instr.sharRImm64
  | 154 => .twoRegsImm Instr.negAddImm64
  | 155 => .twoRegsImm Instr.shloLImmAlt64
  | 156 => .twoRegsImm Instr.shloRImmAlt64
  | 157 => .twoRegsImm Instr.sharRImmAlt64
  | 158 => .twoRegsImm Instr.rotR64Imm
  | 159 => .twoRegsImm Instr.rotR64ImmAlt
  | 160 => .twoRegsImm Instr.rotR32Imm
  | 161 => .twoRegsImm Instr.rotR32ImmAlt
  | 170 => .twoRegsOffset Instr.branchEq
  | 171 => .twoRegsOffset Instr.branchNe
  | 172 => .twoRegsOffset Instr.branchLtU
  | 173 => .twoRegsOffset Instr.branchLtS
  | 174 => .twoRegsOffset Instr.branchGeU
  | 175 => .twoRegsOffset Instr.branchGeS
  | 180 => .twoRegsTwoImms Instr.loadImmJumpInd
  | 190 => .threeRegs Instr.add32
  | 191 => .threeRegs Instr.sub32
  | 192 => .threeRegs Instr.mul32
  | 193 => .threeRegs Instr.divU32
  | 194 => .threeRegs Instr.divS32
  | 195 => .threeRegs Instr.remU32
  | 196 => .threeRegs Instr.remS32
  | 197 => .threeRegs Instr.shloL32
  | 198 => .threeRegs Instr.shloR32
  | 199 => .threeRegs Instr.sharR32
  | 200 => .threeRegs Instr.add64
  | 201 => .threeRegs Instr.sub64
  | 202 => .threeRegs Instr.mul64
  | 203 => .threeRegs Instr.divU64
  | 204 => .threeRegs Instr.divS64
  | 205 => .threeRegs Instr.remU64
  | 206 => .threeRegs Instr.remS64
  | 207 => .threeRegs Instr.shloL64
  | 208 => .threeRegs Instr.shloR64
  | 209 => .threeRegs Instr.sharR64
  | 210 => .threeRegs Instr.and
  | 211 => .threeRegs Instr.xor
  | 212 => .threeRegs Instr.or
  | 213 => .threeRegs Instr.mulUpperSS
  | 214 => .threeRegs Instr.mulUpperUU
  | 215 => .threeRegs Instr.mulUpperSU
  | 216 => .threeRegs Instr.setLtU
  | 217 => .threeRegs Instr.setLtS
  | 218 => .threeRegs Instr.cmovIz
  | 219 => .threeRegs Instr.cmovNz
  | 220 => .threeRegs Instr.rotL64
  | 221 => .threeRegs Instr.rotL32
  | 222 => .threeRegs Instr.rotR64
  | 223 => .threeRegs Instr.rotR32
  | 224 => .threeRegs Instr.andInv
  | 225 => .threeRegs Instr.orInv
  | 226 => .threeRegs Instr.xnor
  | 227 => .threeRegs Instr.max
  | 228 => .threeRegs Instr.maxU
  | 229 => .threeRegs Instr.min
  | 230 => .threeRegs Instr.minU
  | _ => .noArgs Instr.trap

/-! ### Decoding -/

/-- Reads the operand fields of the row's shape from the code bytes c, the argument-byte count l and the pc
(R89 to R101). -/
def Row.read (c : Nat → Byte) (l : Nat) (pc : Addr) : Row → Instr
  | .noArgs mk => mk
  | .oneImm mk => mk (immAt c 1 (lenRest l))
  | .regExtImm mk => mk (regLo (c 1)) (extImm c)
  | .twoImms mk =>
      let lX := lenField (c 1).toNat
      mk (immAt c 2 lX) (immAt c (2 + lX) (lenRest (l - lX - 1)))
  | .oneOffset mk => mk (relTarget pc (immAt c 1 (lenRest l)))
  | .regImm mk => mk (regLo (c 1)) (immAt c 2 (lenRest (l - 1)))
  | .regTwoImms mk =>
      let lX := lenField ((c 1).toNat / 16)
      mk (regLo (c 1)) (immAt c 2 lX) (immAt c (2 + lX) (lenRest (l - lX - 1)))
  | .regImmOffset mk =>
      let lX := lenField ((c 1).toNat / 16)
      mk (regLo (c 1)) (immAt c 2 lX) (relTarget pc (immAt c (2 + lX) (lenRest (l - lX - 1))))
  | .twoRegs mk => mk (regLo (c 1)) (regHi (c 1))
  | .twoRegsImm mk => mk (regLo (c 1)) (regHi (c 1)) (immAt c 2 (lenRest (l - 1)))
  | .twoRegsOffset mk => mk (regLo (c 1)) (regHi (c 1)) (relTarget pc (immAt c 2 (lenRest (l - 1))))
  | .twoRegsTwoImms mk =>
      let lX := lenField (c 2).toNat
      mk (regLo (c 1)) (regHi (c 1)) (immAt c 3 lX) (immAt c (3 + lX) (lenRest (l - lX - 2)))
  | .threeRegs mk => mk (regByte (c 2)) (regLo (c 1)) (regHi (c 1))

/-- The decoder: the instruction at pc and its argument-byte count (R102). The mask bit at pc itself is not checked
(R106). -/
def decode (p : Program) (pc : Addr) : Instr × Nat :=
  let l := p.skip pc.toNat
  ((opcodeMap (p.codeByte pc.toNat).toNat).read (fun k => p.codeByte (pc.toNat + k)) l pc, l)

/-- A program image that is one instruction: the bytes of w (bit 0 the least significant bit of the first byte), those
from bit nbits on 0, up to the longest instruction's 25 bytes (R14), with the one mask bit of its start. -/
def tableProgram (nbits w : Nat) (jumpTable : List Addr) : Program where
  code := leBytes (max (1 + Config.skipCap) (nbits / 8)) (w % 2 ^ nbits)
  mask := true :: List.replicate (max (1 + Config.skipCap) (nbits / 8) - 1) false
  jumpTable := jumpTable

/-- The instruction the decoder reads from the bits w of an opcode-table row: never `none`, since every byte string
decodes (R105). -/
def decodeTableWord (nbits w : Nat) : Option Instr := some (decode (tableProgram nbits w []) 0#32).1

/-! ### Encoding -/

/-- The opcode byte of an instruction (R103). -/
def Instr.opcode : Instr → Nat
  | .trap => 0
  | .fallthrough => 1
  | .ecalli .. => 10
  | .loadImm64 .. => 20
  | .storeImmU8 .. => 30
  | .storeImmU16 .. => 31
  | .storeImmU32 .. => 32
  | .storeImmU64 .. => 33
  | .jump .. => 40
  | .jumpInd .. => 50
  | .loadImm .. => 51
  | .loadU8 .. => 52
  | .loadI8 .. => 53
  | .loadU16 .. => 54
  | .loadI16 .. => 55
  | .loadU32 .. => 56
  | .loadI32 .. => 57
  | .loadU64 .. => 58
  | .storeU8 .. => 59
  | .storeU16 .. => 60
  | .storeU32 .. => 61
  | .storeU64 .. => 62
  | .storeImmIndU8 .. => 70
  | .storeImmIndU16 .. => 71
  | .storeImmIndU32 .. => 72
  | .storeImmIndU64 .. => 73
  | .loadImmJump .. => 80
  | .branchEqImm .. => 81
  | .branchNeImm .. => 82
  | .branchLtUImm .. => 83
  | .branchLeUImm .. => 84
  | .branchGeUImm .. => 85
  | .branchGtUImm .. => 86
  | .branchLtSImm .. => 87
  | .branchLeSImm .. => 88
  | .branchGeSImm .. => 89
  | .branchGtSImm .. => 90
  | .moveReg .. => 100
  | .sbrk .. => 101
  | .countSetBits64 .. => 102
  | .countSetBits32 .. => 103
  | .leadingZeroBits64 .. => 104
  | .leadingZeroBits32 .. => 105
  | .trailingZeroBits64 .. => 106
  | .trailingZeroBits32 .. => 107
  | .signExtend8 .. => 108
  | .signExtend16 .. => 109
  | .zeroExtend16 .. => 110
  | .reverseBytes .. => 111
  | .storeIndU8 .. => 120
  | .storeIndU16 .. => 121
  | .storeIndU32 .. => 122
  | .storeIndU64 .. => 123
  | .loadIndU8 .. => 124
  | .loadIndI8 .. => 125
  | .loadIndU16 .. => 126
  | .loadIndI16 .. => 127
  | .loadIndU32 .. => 128
  | .loadIndI32 .. => 129
  | .loadIndU64 .. => 130
  | .addImm32 .. => 131
  | .andImm .. => 132
  | .xorImm .. => 133
  | .orImm .. => 134
  | .mulImm32 .. => 135
  | .setLtUImm .. => 136
  | .setLtSImm .. => 137
  | .shloLImm32 .. => 138
  | .shloRImm32 .. => 139
  | .sharRImm32 .. => 140
  | .negAddImm32 .. => 141
  | .setGtUImm .. => 142
  | .setGtSImm .. => 143
  | .shloLImmAlt32 .. => 144
  | .shloRImmAlt32 .. => 145
  | .sharRImmAlt32 .. => 146
  | .cmovIzImm .. => 147
  | .cmovNzImm .. => 148
  | .addImm64 .. => 149
  | .mulImm64 .. => 150
  | .shloLImm64 .. => 151
  | .shloRImm64 .. => 152
  | .sharRImm64 .. => 153
  | .negAddImm64 .. => 154
  | .shloLImmAlt64 .. => 155
  | .shloRImmAlt64 .. => 156
  | .sharRImmAlt64 .. => 157
  | .rotR64Imm .. => 158
  | .rotR64ImmAlt .. => 159
  | .rotR32Imm .. => 160
  | .rotR32ImmAlt .. => 161
  | .branchEq .. => 170
  | .branchNe .. => 171
  | .branchLtU .. => 172
  | .branchLtS .. => 173
  | .branchGeU .. => 174
  | .branchGeS .. => 175
  | .loadImmJumpInd .. => 180
  | .add32 .. => 190
  | .sub32 .. => 191
  | .mul32 .. => 192
  | .divU32 .. => 193
  | .divS32 .. => 194
  | .remU32 .. => 195
  | .remS32 .. => 196
  | .shloL32 .. => 197
  | .shloR32 .. => 198
  | .sharR32 .. => 199
  | .add64 .. => 200
  | .sub64 .. => 201
  | .mul64 .. => 202
  | .divU64 .. => 203
  | .divS64 .. => 204
  | .remU64 .. => 205
  | .remS64 .. => 206
  | .shloL64 .. => 207
  | .shloR64 .. => 208
  | .sharR64 .. => 209
  | .and .. => 210
  | .xor .. => 211
  | .or .. => 212
  | .mulUpperSS .. => 213
  | .mulUpperUU .. => 214
  | .mulUpperSU .. => 215
  | .setLtU .. => 216
  | .setLtS .. => 217
  | .cmovIz .. => 218
  | .cmovNz .. => 219
  | .rotL64 .. => 220
  | .rotL32 .. => 221
  | .rotR64 .. => 222
  | .rotR32 .. => 223
  | .andInv .. => 224
  | .orInv .. => 225
  | .xnor .. => 226
  | .max .. => 227
  | .maxU .. => 228
  | .min .. => 229
  | .minU .. => 230

/-- Two nibbles in one byte. -/
def nibbles (hi lo : Nat) : Byte := BitVec.ofNat 8 (16 * hi + lo)

/-- The offset field of a branch at pc to a target, as a signed value (R88). -/
def relOffset (pc target : Addr) : Word := (target - pc).signExtend 64

/-- The argument bytes of a record, with lX bytes for the first variable-length field of its shape and lY for the
second (R89 to R101). -/
def Args.encode (lX lY : Nat) (pc : Addr) : Args → List Byte
  | .noArgs => []
  | .oneImm immX => leBytes lX immX.toNat
  | .regExtImm rA immX => nibbles 0 rA :: leBytes 8 immX.toNat
  | .twoImms immX immY => BitVec.ofNat 8 lX :: (leBytes lX immX.toNat ++ leBytes lY immY.toNat)
  | .oneOffset target => leBytes lX (relOffset pc target).toNat
  | .regImm rA immX => nibbles 0 rA :: leBytes lX immX.toNat
  | .regTwoImms rA immX immY => nibbles lX rA :: (leBytes lX immX.toNat ++ leBytes lY immY.toNat)
  | .regImmOffset rA immX target =>
      nibbles lX rA :: (leBytes lX immX.toNat ++ leBytes lY (relOffset pc target).toNat)
  | .twoRegs rD rA => [nibbles rA rD]
  | .twoRegsImm rA rB immX => nibbles rB rA :: leBytes lX immX.toNat
  | .twoRegsOffset rA rB target => nibbles rB rA :: leBytes lX (relOffset pc target).toNat
  | .twoRegsTwoImms rA rB immX immY =>
      nibbles rB rA :: BitVec.ofNat 8 lX :: (leBytes lX immX.toNat ++ leBytes lY immY.toNat)
  | .threeRegs rD rA rB => [nibbles rB rA, BitVec.ofNat 8 rD]

/-- The record's variable-length fields fit in lX and lY bytes (R87, R88). -/
def Args.fits (lX lY : Nat) (pc : Addr) : Args → Bool
  | .noArgs => true
  | .oneImm immX => immFits lX immX
  | .regExtImm _ _ => true
  | .twoImms immX immY => immFits lX immX && immFits lY immY
  | .oneOffset target => immFits lX (relOffset pc target)
  | .regImm _ immX => immFits lX immX
  | .regTwoImms _ immX immY => immFits lX immX && immFits lY immY
  | .regImmOffset _ immX target => immFits lX immX && immFits lY (relOffset pc target)
  | .twoRegs _ _ => true
  | .twoRegsImm _ _ immX => immFits lX immX
  | .twoRegsOffset _ _ target => immFits lX (relOffset pc target)
  | .twoRegsTwoImms _ _ immX immY => immFits lX immX && immFits lY immY
  | .threeRegs _ _ _ => true

/-- The bytes of the instruction for the place pc, with fields of lX and lY bytes. -/
def encodeWith (lX lY : Nat) (pc : Addr) (i : Instr) : List Byte :=
  BitVec.ofNat 8 i.opcode :: i.args.encode lX lY pc

/-- The bytes of a well-formed instruction for the place pc, every variable-length field written with four bytes. -/
def encode (pc : Addr) (i : Instr) : List Byte :=
  encodeWith Config.maxImmBytes Config.maxImmBytes pc i

/-- The bytes bs stand at pc in the program, and the mask makes them one instruction there. -/
def Program.Holds (p : Program) (pc : Addr) (bs : List Byte) : Prop :=
  (∀ k, k < bs.length → p.codeByte (pc.toNat + k) = bs.getD k 0) ∧ p.skip pc.toNat + 1 = bs.length

end Sys2Proof
end

