-- ==== Sys2Proof/Machine/Blocks.lean ====
section
/-! DEFINITION. The basic-block validator: which offsets of a program are legal control-flow targets
(40_dispatch.md section 3). -/

namespace Sys2Proof

/-- The terminator set T, by opcode: trap, fallthrough, jump, jump_ind, load_imm_jump, the branches and
load_imm_jump_ind (R118). -/
def isTerminator (opcode : Nat) : Bool :=
  opcode == 0 || opcode == 1 || opcode == 40 || opcode == 50 || (80 ≤ opcode && opcode ≤ 90) ||
    (170 ≤ opcode && opcode ≤ 175) || opcode == 180

/-- The offsets that follow a terminator: n + 1 + skip(n) for every instruction start n in the code whose opcode is in
T (R119). -/
def Program.blockEnds (p : Program) : List Nat :=
  ((List.range p.code.length).filter (fun n => p.maskBit n && isTerminator (p.codeByte n).toNat)).map
    (fun n => n + 1 + p.skip n)

/-- BLOCKS(code, mask): offset 0 and the offsets after a terminator, as far as they are instruction starts inside the
code (R119), in rising order. -/
def Program.basicBlocks (p : Program) : List Nat :=
  let ends := p.blockEnds
  (List.range p.code.length).filter (fun k => p.maskBit k && (k == 0 || ends.contains k))

end Sys2Proof
end

