-- ==== Sys2Proof/Machine/State.lean ====
section
/-! DEFINITION. The architectural state of the block as plain data (10_state.md), why a step or a host transaction can
stop, and the machine right after reset. -/

namespace Sys2Proof.Machine

/-- STATUS (R42). -/
inductive Status where
  /-- Running; also the state after reset. -/
  | ok
  /-- Terminated successfully. -/
  | halt
  /-- Invalid control flow, a memory fault, a trap. -/
  | panic
  /-- Gas exhausted. -/
  | oog
  /-- Suspended awaiting a host call. -/
  | host
deriving DecidableEq, Repr

/-- The exceptional kinds an operation can write into the result record (R50, R112). -/
inductive ExitKind where
  /-- The program ends (R252). -/
  | halt
  /-- Trap or invalid control flow (R251, R252, R254). -/
  | panic
  /-- A page fault at this address (R218, R219). -/
  | fault (address : Addr)
  /-- A host call with this index (R278). -/
  | host (index : BitVec 32)
deriving DecidableEq, Repr

/-- The per-step operation result record (R50, R112). -/
structure OpResult where
  /-- The record's status, where an operation wrote one. -/
  kind : Option ExitKind
  /-- The validated target of a control transfer, where an operation wrote one. -/
  nextPc : Option Addr
deriving DecidableEq, Repr

/-- The empty record, with which each step starts (R112). -/
def OpResult.empty : OpResult := { kind := none, nextPc := none }

/-- A page fault: the wraparound-normalized faulting address, returned as a value (R66, R283). -/
structure PageFault where
  /-- The first inaccessible address in access order. -/
  address : Addr
deriving DecidableEq, Repr

/-- The permission of one byte of data memory (R59). -/
inductive Perm where
  /-- NONE: every access faults. -/
  | noAccess
  /-- R: loads only. -/
  | readOnly
  /-- RW: loads and stores. -/
  | readWrite
deriving DecidableEq, Repr

/-- A chunk of a VirtualPage: the page offsets from `start` up to `stop`, with its own permission (R57). Its content
bytes stand in `Memory.cells`. -/
structure Chunk where
  /-- The first offset in the chunk. -/
  start : Nat
  /-- The first offset past the chunk. -/
  stop : Nat
  /-- RW if true, R if false. -/
  writeable : Bool
deriving DecidableEq, Repr

/-- A page descriptor (R54 to R57, R77). -/
inductive Page where
  /-- ReadablePage: every byte R. -/
  | readable
  /-- WriteablePage: every byte RW. -/
  | writeable
  /-- VirtualPage: each byte as its chunk says, NONE outside every chunk. -/
  | chunked (chunks : List Chunk)
deriving DecidableEq, Repr

/-- The data memory: the sparse page map, the content of the pages and the heap cursors (R45, R46). The content is a
list of address and byte pairs in one canonical form (`Memory.wf`): addresses strictly rising, no entry that is 0, which
is what an unlisted byte reads as (R55, R56, R69). -/
structure Memory where
  /-- Page number and descriptor, page numbers strictly rising. -/
  pages : List (Nat × Page)
  /-- The content bytes that are not 0. -/
  cells : List Host.Cell
  /-- SBRK, the committed, page-aligned boundary. -/
  sbrk : Nat
  /-- VSBRK, the logical cursor. -/
  vsbrk : Nat
  /-- ENDHEAP, the hard ceiling. -/
  endHeap : Nat
deriving DecidableEq, Repr

/-- The state of one instance of the block (10_state.md, its opening), and two fields of the model's own: whether a run
has begun (log 8) and the counter of free values (log 4). -/
structure State where
  /-- r0..r12 (R30). -/
  regs : Vector Word 13
  /-- The program counter, a byte offset into code (R37). -/
  pc : Addr
  /-- GAS (R44). -/
  gas : Word
  /-- STATUS (R42). -/
  status : Status
  /-- EXIT_PARAM (R43). -/
  exitParam : Option (BitVec 32)
  /-- The data memory (R46). -/
  mem : Memory
  /-- The program image (R48). -/
  prog : Program
  /-- The basic-block starts, rising (R49). -/
  blocks : List Nat
  /-- The operation result record (R50). -/
  result : OpResult
  /-- The model's own: a step has begun since the last reset, so that STATUS OK means a run in progress; while no step
  has, the machine is between runs (R293 duty 3; log 8). -/
  started : Bool
  /-- The model's own: how many free values have been drawn (log 4). -/
  freeCount : Nat
deriving DecidableEq, Repr

/-- The hard failures of the memory builder (R72, R73, U7). -/
inductive BuildError where
  /-- A chunk overlaps another chunk of its page. -/
  | chunkOverlap
  /-- A chunk range that crosses a page boundary. -/
  | chunkTooLong
  /-- A whole-page declaration on a declared page, or a chunk on a page declared whole. -/
  | pageAlreadyDeclared
  /-- A declared page inside the heap range. -/
  | heapRangeNotEmpty
  /-- A call after `finalize`. -/
  | builderReused
  /-- A byte of `setData` with no declared page or chunk. -/
  | pageMissing
  /-- A range that breaks R72's conditions on its arguments (log 9). -/
  | badRange
  /-- Heap cursors that break R73's three preconditions. -/
  | badHeapRange
deriving DecidableEq, Repr

/-- Why the machine stops with a fault. No step raises one: every runtime condition is data in the state (R280). -/
inductive Fault where
  /-- Raised by the memory builder only, before reset: no Memory is produced (R73, U7). Safe: nothing runs. -/
  | build (e : BuildError)
deriving DecidableEq, Repr

/-- Why the model gives no next state. No step answers with one. -/
inductive Refusal where
  /-- Raised by an arm of `exec` whose instruction has no meaning yet. Safe: nothing runs. No arm does. -/
  | notModelled (mnemonic : String)
  /-- Raised by reset when the mask has not one bit for each code byte (R302, D33). Safe: nothing runs. -/
  | maskLength
  /-- Raised by reset when the code has 2^32 bytes or more (R20; log 7). Safe: nothing runs. -/
  | codeTooLong
  /-- Raised by reset and by the host's gas `add` when the amount passes GAS_MAX (R293, R301, D3). Safe. -/
  | gasBeyondMax
  /-- Raised by a host write of a register, or a host access to memory, while a run is in progress and not paused (R293;
  log 8). Safe: the spec puts such a host outside the contract. -/
  | hostAccessWhileRunning
deriving DecidableEq, Repr

/-- A fresh Memory: no pages, SBRK = VSBRK = 0, ENDHEAP = 2^32 (R74). -/
def Memory.fresh : Memory where
  pages := []
  cells := []
  sbrk := 0
  vsbrk := 0
  endHeap := 2 ^ 32

/-- The machine right after reset (R52, R303): the values that R301 gives, for the arguments this model chooses, an
empty program, initialPC 0, initialGas 0, no registers and no memory supplied (logs 1 to 4). No run
has begun (log 8). -/
def State.reset : State where
  regs := Vector.replicate 13 0#64
  pc := 0#32
  gas := 0#64
  status := .ok
  exitParam := none
  mem := Memory.fresh
  prog := { code := [], mask := [], jumpTable := [] }
  blocks := []
  result := OpResult.empty
  started := false
  freeCount := 0

end Sys2Proof.Machine
end

