-- ==== Sys2Proof/Machine/Memory.lean ====
section
/-! DEFINITION. The data memory's operations: permission and content of a byte, the load and store primitives, the
checks, heap growth, and the canonical form every one of them keeps (20_memory.md). -/

namespace Sys2Proof.Machine

/-! ### Content bytes -/

/-- What a content byte reads as when it is not listed: 0 (R55, R56, R69). -/
def unlistedByte : Byte := 0#8

/-- The content byte at address a. -/
def readCell : List Host.Cell → Nat → Byte
  | [], _ => unlistedByte
  | c :: cs, a => if c.1 = a then c.2 else readCell cs a

/-- Puts an entry at its place in a rising list. -/
def insertCell (a : Nat) (v : Byte) : List Host.Cell → List Host.Cell
  | [] => [(a, v)]
  | c :: cs => if a < c.1 then (a, v) :: c :: cs else c :: insertCell a v cs

/-- Writes one content byte: the entry of a goes, and a new one comes unless v is what an unlisted byte reads as. -/
def writeCell (cells : List Host.Cell) (a : Nat) (v : Byte) : List Host.Cell :=
  let rest := cells.filter (fun c => c.1 != a)
  if v = unlistedByte then rest else insertCell a v rest

/-! ### Pages and permissions -/

/-- The page descriptor of a page number, if there is one (R54). -/
def findPage : List (Nat × Page) → Nat → Option Page
  | [], _ => none
  | q :: qs, n => if q.1 = n then some q.2 else findPage qs n

/-- The page map with the descriptor p at each of the count page numbers from lo on (R54, R69, R72). -/
def placePages (pages : List (Nat × Page)) (p : Page) (lo count : Nat) : List (Nat × Page) :=
  pages.filter (fun q => decide (q.1 < lo))
    ++ (List.range count).map (fun k => (lo + k, p))
    ++ pages.filter (fun q => decide (lo + count ≤ q.1))

/-- The page number of an address, `a >> PAGE_SHIFT` (R53). -/
def pageNumber (a : Nat) : Nat := a / Config.pageSize

/-- The page offset of an address (R53). -/
def pageOffset (a : Nat) : Nat := a % Config.pageSize

/-- The chunk of a VirtualPage that covers an offset (R57). -/
def coveringChunk (chunks : List Chunk) (offset : Nat) : Option Chunk :=
  chunks.find? (fun c => decide (c.start ≤ offset ∧ offset < c.stop))

/-- The permission a page gives the byte at an offset (R59, R77). -/
def Page.perm : Page → Nat → Perm
  | .readable, _ => .readOnly
  | .writeable, _ => .readWrite
  | .chunked chunks, offset =>
      match coveringChunk chunks offset with
      | some c => if c.writeable then .readWrite else .readOnly
      | none => .noAccess

/-- The permission the page map gives address a, the heap gap aside (R59). -/
def Memory.pagePerm (m : Memory) (a : Nat) : Perm :=
  match findPage m.pages (pageNumber a) with
  | some p => p.perm (pageOffset a)
  | none => .noAccess

/-- `perm(a)`: NONE in the heap gap, else what the page map says (R58, R59). -/
def Memory.perm (m : Memory) (a : Nat) : Perm :=
  if m.vsbrk ≤ a ∧ a < m.sbrk then .noAccess else m.pagePerm a

/-- `val(a)`: the content byte of address a (R59). -/
def Memory.val (m : Memory) (a : Nat) : Byte := readCell m.cells a

/-- Writes the content byte of address a. -/
def Memory.setByte (m : Memory) (a : Nat) (v : Byte) : Memory := { m with cells := writeCell m.cells a v }

/-- One byte as a load sees it: nothing where it has no permission (R59, R77). -/
def Memory.readByte (m : Memory) (a : Addr) : Option Byte :=
  if m.perm a.toNat = .noAccess then none else some (m.val a.toNat)

/-! ### Access primitives -/

/-- `loadInto`: n bytes from address a on, up to the first byte without permission, and the fault there (R64). Byte k
is at (a + k) mod 2^32 (R53). -/
def Memory.loadInto (m : Memory) : Nat → Addr → List Byte × Option PageFault
  | 0, _ => ([], none)
  | n + 1, a =>
      if m.perm a.toNat = .noAccess then ([], some ⟨a⟩)
      else
        let r := m.loadInto n (a + 1)
        (m.val a.toNat :: r.1, r.2)

/-- The first address of n bytes from a on that has not permission RW (R65). -/
def Memory.firstNotWriteable (m : Memory) : Nat → Addr → Option Addr
  | 0, _ => none
  | n + 1, a => if m.perm a.toNat = .readWrite then m.firstNotWriteable n (a + 1) else some a

/-- Writes bytes at a, a + 1, … modulo 2^32, without a check (R60). -/
def Memory.writeBytes (m : Memory) (a : Addr) : List Byte → Memory
  | [] => m
  | b :: bs => (m.setByte a.toNat b).writeBytes (a + 1) bs

/-- How many of len bytes from address a on lie in a's page (R65). -/
def segmentLength (a : Addr) (len : Nat) : Nat := min len (Config.pageSize - pageOffset a.toNat)

/-- Writes the page segments of bs in order, each checked as a whole first; `fuel` bounds the number of segments
(R65). -/
def Memory.storeSegments : Nat → Memory → Addr → List Byte → Memory × Option PageFault
  | 0, m, _, _ => (m, none)
  | fuel + 1, m, a, bs =>
      let n := segmentLength a bs.length
      match m.firstNotWriteable n a with
      | some f => (m, some ⟨f⟩)
      | none =>
          Memory.storeSegments fuel (m.writeBytes a (bs.take n)) (a + BitVec.ofNat 32 n) (bs.drop n)

/-- `storeFrom`: writes bs at address a. The earlier segments of a faulting store stay written (R65). -/
def Memory.storeFrom (m : Memory) (a : Addr) (bs : List Byte) : Memory × Option PageFault :=
  Memory.storeSegments bs.length m a bs

/-- `isWriteable`: every byte of the range has permission RW (R67). -/
def Memory.isWriteable (m : Memory) (a : Addr) (len : Nat) : Bool := (m.firstNotWriteable len a).isNone

/-- `getPageDump`: the page's content, 0 where no chunk covers it; the heap gap is ignored (R68, D17). -/
def Memory.pageDump (m : Memory) (n : Nat) : Option (List Byte) :=
  match findPage m.pages n with
  | none => none
  | some p =>
      some ((List.range Config.pageSize).map (fun k =>
        if p.perm k = .noAccess then 0#8 else m.val (n * Config.pageSize + k)))

/-- `MemRead(a, n)`: the little-endian value of n bytes, or the fault (R25, R64). -/
def Memory.memRead (m : Memory) (a : Addr) (n : Nat) : Except PageFault Word :=
  match m.loadInto n a with
  | (bs, none) => .ok (BitVec.ofNat 64 (leValue bs))
  | (_, some f) => .error f

/-- `MemWrite(a, n, v)`: stores the low n bytes of v, little-endian (R25, R65). -/
def Memory.memWrite (m : Memory) (a : Addr) (n : Nat) (v : Word) : Memory × Option PageFault :=
  m.storeFrom a (leBytes n v.toNat)

/-! ### Heap growth -/

/-- v rounded up to a multiple of PAGE_SIZE (R69). -/
def pageRoundUp (v : Nat) : Nat := (v + Config.pageSize - 1) / Config.pageSize * Config.pageSize

/-- `sbrk(length)`: the previous VSBRK and the memory after it, or nothing where the request is out of memory
(R69, R71). New pages read as zero. -/
def Memory.growHeap (m : Memory) (length : Nat) : Option (Nat × Memory) :=
  let newV := m.vsbrk + length
  if m.endHeap < newV then none
  else if newV ≤ m.sbrk then some (m.vsbrk, { m with vsbrk := newV })
  else
    let newS := pageRoundUp newV
    some (m.vsbrk,
      { m with
        pages := placePages m.pages .writeable (pageNumber m.sbrk) (pageNumber newS - pageNumber m.sbrk)
        cells := m.cells.filter (fun c => decide (c.1 < m.sbrk ∨ newS ≤ c.1))
        sbrk := newS
        vsbrk := newV })

/-! ### The canonical form -/

/-- Content bytes: addresses strictly rising, none listed that reads as an unlisted one. -/
abbrev cellsCanonical (cells : List Host.Cell) : Prop :=
  cells.Pairwise (fun c d => c.1 < d.1) ∧ ∀ c ∈ cells, c.2 ≠ unlistedByte

/-- The chunks of a VirtualPage: each a range inside the page, none overlapping a later one, in rising order (R57). -/
abbrev chunksCanonical (chunks : List Chunk) : Prop :=
  (∀ c ∈ chunks, c.start < c.stop ∧ c.stop ≤ Config.pageSize) ∧
    chunks.Pairwise (fun c d => c.stop ≤ d.start)

/-- A page descriptor in canonical form. -/
def Page.canonical : Page → Bool
  | .readable => true
  | .writeable => true
  | .chunked chunks => decide (chunksCanonical chunks)

/-- The page map: page numbers strictly rising and below NUM_PAGES, every descriptor canonical (R54). -/
abbrev pagesCanonical (pages : List (Nat × Page)) : Prop :=
  pages.Pairwise (fun p q => p.1 < q.1) ∧ ∀ q ∈ pages, q.1 < Config.numPages ∧ q.2.canonical = true

/-- The heap cursors: VSBRK ≤ SBRK ≤ ENDHEAP ≤ 2^32, SBRK and ENDHEAP page-aligned (R45, R69, R73). -/
abbrev Memory.cursorsWf (m : Memory) : Prop :=
  m.vsbrk ≤ m.sbrk ∧ m.sbrk ≤ m.endHeap ∧ m.endHeap ≤ Config.memSize ∧
    pageOffset m.sbrk = 0 ∧ pageOffset m.endHeap = 0

/-- No page lies in the range kept for future heap growth (R73). -/
abbrev Memory.heapEmpty (m : Memory) : Prop :=
  ∀ q ∈ m.pages, q.1 < pageNumber m.sbrk ∨ pageNumber m.endHeap ≤ q.1

/-- Every content byte belongs to a declared page or chunk (R56, R57). -/
abbrev Memory.cellsBacked (m : Memory) : Prop := ∀ c ∈ m.cells, m.pagePerm c.1 ≠ .noAccess

/-- The one canonical form of a memory: of its content, its page map and its heap cursors. -/
abbrev Memory.wf (m : Memory) : Prop :=
  cellsCanonical m.cells ∧ pagesCanonical m.pages ∧ m.cursorsWf ∧ m.heapEmpty ∧ m.cellsBacked

end Sys2Proof.Machine
end

