-- ==== Sys2Proof/Machine/Operands.lean ====
section
/-! DEFINITION. The operand forms: the register file and its views (10_state.md section 1), effective addresses (R216),
and the value functions of the register-to-register instructions (41_arithmetic.md, 42_bitwise_shift.md). -/

namespace Sys2Proof.Machine

/-! ### The register file -/

/-- `x[i]`, read as 64 bits (R24, `getU64` of R33). -/
def State.reg (s : State) (i : Reg) : Word := s.regs[i]

/-- `x[i] <- v` (R24, `setU64` of R34). No register is hard-wired (R30). -/
def State.setReg (s : State) (i : Reg) (v : Word) : State := { s with regs := s.regs.set i v }

/-- `getI64(i)` (R33). -/
def State.getI64 (s : State) (i : Reg) : Int := s64 (s.reg i)

/-- `getU32(i)`: bytes 4..7 are ignored (R33). -/
def State.getU32 (s : State) (i : Reg) : BitVec 32 := u32 (s.reg i)

/-- `getI32(i)` (R33). -/
def State.getI32 (s : State) (i : Reg) : Int := s32 (s.reg i)

/-- `setI64(i, v)`, for v in [-2^63, 2^63) (R34). DESIGN CHOICE: any other v is reduced modulo 2^64 and not refused
(log 19). -/
def State.setI64 (s : State) (i : Reg) (v : Int) : State := s.setReg i (to64 v)

/-- `setU32(i, v)`: bytes 4..7 become zero (R34, D8). -/
def State.setU32 (s : State) (i : Reg) (v : BitVec 32) : State := s.setReg i (v.setWidth 64)

/-- `setI32(i, v)`: bytes 4..7 become copies of bit 31 (R34, D8). -/
def State.setI32 (s : State) (i : Reg) (v : BitVec 32) : State := s.setReg i (x4 v)

/-- `getBytesAsLittleEndian(i, n)` read: the bytes b0..b(n-1) of register i, n ≤ 8 (R35). DESIGN CHOICE: a larger n reads
as 8 (log 19). -/
def State.regBytes (s : State) (i : Reg) (n : Nat) : List Byte := leBytes (min 8 n) (s.reg i).toNat

/-- `getBytesAsLittleEndian(i, n)` written at byte k: bits 8k+7..8k of register i and nothing else (R35).
DESIGN CHOICE: for k > 7, where the window has no byte, nothing is written (log 19). -/
def State.setRegByte (s : State) (i : Reg) (k : Nat) (b : Byte) : State :=
  if k < 8 then s.setReg i (BitVec.ofNat 64 (leValue ((leBytes 8 (s.reg i).toNat).set k b))) else s

/-! ### Effective addresses -/

/-- The absolute address `u32(immX)` (R216). -/
def absAddr (immX : Word) : Addr := u32 immX

/-- The indirect address `(x[r] + immX) mod 2^32` (R216). It is also the dynamic jump address of R257 and R259. -/
def State.indAddr (s : State) (r : Reg) (immX : Word) : Addr := u32 (s.reg r + immX)

/-! ### Arithmetic values -/

/-- `2^64 - 1`, the result of a division by zero (R135, R136, R142, R143). -/
def allOnes : Word := BitVec.allOnes 64

/-- `X4((a + b) mod 2^32)` (R126, R132). -/
def add32 (a b : Word) : Word := x4 (u32 a + u32 b)
/-- `X4((a - b) mod 2^32)` (R128, R133). -/
def sub32 (a b : Word) : Word := x4 (u32 a - u32 b)
/-- `X4((a * b) mod 2^32)` (R127, R134). -/
def mul32 (a b : Word) : Word := x4 (u32 a * u32 b)
/-- Unsigned 32-bit division; by zero 2^64 - 1 (R135). -/
def divU32 (a b : Word) : Word := if u32 b = 0#32 then allOnes else x4 (u32 a / u32 b)
/-- Signed 32-bit division, truncating; by zero 2^64 - 1; the overflow gives the dividend (R136). -/
def divS32 (a b : Word) : Word :=
  if s32 b = 0 then allOnes
  else if s32 a = -2 ^ 31 ∧ s32 b = -1 then to64 (s32 a)
  else to64 ((s32 a).tdiv (s32 b))
/-- Unsigned 32-bit remainder; by zero the dividend's low word, sign-extended (R137). -/
def remU32 (a b : Word) : Word := if u32 b = 0#32 then x4 (u32 a) else x4 (u32 a % u32 b)
/-- Signed 32-bit remainder, with the sign of the dividend; by zero the dividend; 0 for the overflow (R138). -/
def remS32 (a b : Word) : Word :=
  if s32 b = 0 then to64 (s32 a)
  else if s32 a = -2 ^ 31 ∧ s32 b = -1 then 0#64
  else to64 (s32 a - s32 b * (s32 a).tdiv (s32 b))
/-- `(a + b) mod 2^64` (R129, R139). -/
def add64 (a b : Word) : Word := a + b
/-- `(a - b) mod 2^64` (R131, R140). -/
def sub64 (a b : Word) : Word := a - b
/-- `(a * b) mod 2^64` (R130, R141). -/
def mul64 (a b : Word) : Word := a * b
/-- Unsigned 64-bit division; by zero 2^64 - 1 (R142). -/
def divU64 (a b : Word) : Word := if b = 0#64 then allOnes else a / b
/-- Signed 64-bit division, truncating; by zero 2^64 - 1; the overflow gives the dividend (R143). -/
def divS64 (a b : Word) : Word :=
  if s64 b = 0 then allOnes
  else if s64 a = -2 ^ 63 ∧ s64 b = -1 then a
  else to64 ((s64 a).tdiv (s64 b))
/-- Unsigned 64-bit remainder; by zero the dividend (R144). -/
def remU64 (a b : Word) : Word := if b = 0#64 then a else a % b
/-- Signed 64-bit remainder, with the sign of the dividend; by zero the dividend; 0 for the overflow (R145). -/
def remS64 (a b : Word) : Word :=
  if s64 b = 0 then a
  else if s64 a = -2 ^ 63 ∧ s64 b = -1 then 0#64
  else to64 (s64 a - s64 b * (s64 a).tdiv (s64 b))
/-- Bits 127..64 of the signed product (R146). The divisor is positive, so `/` is floor division. -/
def mulUpperSS (a b : Word) : Word := to64 (s64 a * s64 b / 2 ^ 64)
/-- Bits 127..64 of the unsigned product (R147). -/
def mulUpperUU (a b : Word) : Word := BitVec.ofNat 64 (a.toNat * b.toNat / 2 ^ 64)
/-- Bits 127..64 of the product of a signed and an unsigned operand (R148). -/
def mulUpperSU (a b : Word) : Word := to64 (s64 a * (b.toNat : Int) / 2 ^ 64)
/-- `to64(max(s64(a), s64(b)))` (R149). -/
def maxS (a b : Word) : Word := to64 (max (s64 a) (s64 b))
/-- Unsigned maximum (R150). -/
def maxU (a b : Word) : Word := BitVec.ofNat 64 (max a.toNat b.toNat)
/-- `to64(min(s64(a), s64(b)))` (R151). -/
def minS (a b : Word) : Word := to64 (min (s64 a) (s64 b))
/-- Unsigned minimum (R152). -/
def minU (a b : Word) : Word := BitVec.ofNat 64 (min a.toNat b.toNat)

/-! ### Bitwise values -/

/-- `a & ~b` (R162). -/
def andInv (a b : Word) : Word := a &&& ~~~b
/-- `a | ~b` (R163). -/
def orInv (a b : Word) : Word := a ||| ~~~b
/-- `~(a ^ b)` (R164). -/
def xnor (a b : Word) : Word := ~~~(a ^^^ b)

/-! ### Shifts and rotates. `v` is the value, `c` the count, taken modulo the width (R153) -/

/-- `X4((v << (c mod 32)) mod 2^32)` (R165, R168, R177). -/
def shloL32 (v c : Word) : Word := x4 (u32 v <<< (c.toNat % 32))
/-- `X4(u32(v) >> (c mod 32))` (R166, R169, R178). -/
def shloR32 (v c : Word) : Word := x4 (u32 v >>> (c.toNat % 32))
/-- `to64(s32(v) >> (c mod 32))`, arithmetic (R167, R170, R179). -/
def sharR32 (v c : Word) : Word := x4 ((u32 v).sshiftRight (c.toNat % 32))
/-- `(v << (c mod 64)) mod 2^64` (R171, R174, R180). -/
def shloL64 (v c : Word) : Word := v <<< (c.toNat % 64)
/-- `v >> (c mod 64)` (R172, R175, R181). -/
def shloR64 (v c : Word) : Word := v >>> (c.toNat % 64)
/-- `to64(s64(v) >> (c mod 64))`, arithmetic (R173, R176, R182). -/
def sharR64 (v c : Word) : Word := v.sshiftRight (c.toNat % 64)
/-- `rotr_64(v, c mod 64)` (R183, R184, R189). -/
def rotR64 (v c : Word) : Word := v.rotateRight (c.toNat % 64)
/-- `X4(rotr_32(u32(v), c mod 32))` (R185, R186, R190). -/
def rotR32 (v c : Word) : Word := x4 ((u32 v).rotateRight (c.toNat % 32))
/-- `rotl_64(v, c mod 64)` (R187). -/
def rotL64 (v c : Word) : Word := v.rotateLeft (c.toNat % 64)
/-- `X4(rotl_32(u32(v), c mod 32))` (R188). -/
def rotL32 (v c : Word) : Word := x4 ((u32 v).rotateLeft (c.toNat % 32))

/-! ### Bit counts, extensions, byte order (R23) -/

/-- The number of 1 bits among the low w bits (R191, R192). -/
def popcount (w : Nat) (v : Word) : Word := BitVec.ofNat 64 ((List.range w).countP (fun k => v.getLsbD k))
/-- The number of leading zeros in the low w bits; w when they are all 0 (R193, R194). -/
def clz (w : Nat) (v : Word) : Word :=
  BitVec.ofNat 64 ((List.range w).reverse.takeWhile (fun k => !v.getLsbD k)).length
/-- The number of trailing zeros in the low w bits; w when they are all 0 (R195, R196). -/
def ctz (w : Nat) (v : Word) : Word :=
  BitVec.ofNat 64 ((List.range w).takeWhile (fun k => !v.getLsbD k)).length
/-- `bswap64`: the eight bytes in reverse order (R200). -/
def bswap64 (v : Word) : Word := BitVec.ofNat 64 (leValue (leBytes 8 v.toNat).reverse)

end Sys2Proof.Machine
end

