-- ==== Sys2Proof/Machine/Ops.lean ====
section
/-! DEFINITION. The named operations the meanings are written over: register results, the result record, control
transfer, memory access, heap growth, gas; and the two ends of a step, taking an exception (commit) and returning from
a host call (00_scope.md R24 to R26, 40_dispatch.md R108 to R114, 45_control.md R251, R252, 60_exceptions.md). -/

namespace Sys2Proof.Machine

/-! ### The operation result record (R112) -/

/-- `raise`: the operation ends with this kind in the record (R26, R112). -/
def State.raise (s : State) (k : ExitKind) : State := { s with result := { kind := some k, nextPc := none } }

/-- `res.nextPc <- t`, for a validated target (R112). -/
def State.jumpTo (s : State) (t : Addr) : State := { s with result := { kind := none, nextPc := some t } }

/-- The record as each step starts with it (R112, R309). -/
def State.clearResult (s : State) : State := { s with result := OpResult.empty }

/-! ### Register results: every operand is read before the destination is written (R24, R124) -/

/-- `x[rD] <- f(x[rA], x[rB])`. -/
def State.regOp3 (s : State) (f : Word → Word → Word) (rD rA rB : Reg) : State :=
  s.setReg rD (f (s.reg rA) (s.reg rB))

/-- `x[rA] <- f(x[rB], immX)`. -/
def State.regOpImm (s : State) (f : Word → Word → Word) (rA rB : Reg) (immX : Word) : State :=
  s.setReg rA (f (s.reg rB) immX)

/-- `x[rA] <- f(immX, x[rB])`: the alternative forms with the roles swapped (R128, R131, R154). -/
def State.regOpImmAlt (s : State) (f : Word → Word → Word) (rA rB : Reg) (immX : Word) : State :=
  s.setReg rA (f immX (s.reg rB))

/-- `x[rD] <- f(x[rA])`. -/
def State.regOp2 (s : State) (f : Word → Word) (rD rA : Reg) : State := s.setReg rD (f (s.reg rA))

/-- A conditional move: the register keeps its value where the condition is false (R202). -/
def State.condMove (s : State) (c : Bool) (r : Reg) (v : Word) : State := if c then s.setReg r v else s

/-! ### Control transfer -/

/-- `isBeginningOfBasicBlock(t)` (R120). -/
def State.isBlockStart (s : State) (t : Addr) : Bool := s.blocks.contains t.toNat

/-- `branch(target, cond)`: not taken it does nothing; taken, a target that is no block start is PANIC (R251). -/
def State.branch (s : State) (target : Addr) (cond : Bool) : State :=
  if cond then (if s.isBlockStart target then s.jumpTo target else s.raise .panic) else s

/-- The jump-table entry of a dynamic address, at index `a / JUMP_ALIGN - 1` (R121). -/
def State.jumpEntry (s : State) (a : Addr) : Option Addr := s.prog.jumpTable[a.toNat / Config.jumpAlign - 1]?

/-- `djump(a)`: HALT_ADDRESS first, then zero and alignment, then the table's range, then the entry (R252, R284). -/
def State.djump (s : State) (a : Addr) : State :=
  if a = Config.haltAddress then s.raise .halt
  else if a = 0#32 ∨ a.toNat % Config.jumpAlign ≠ 0 then s.raise .panic
  else
    match s.jumpEntry a with
    | none => s.raise .panic
    | some t => if s.isBlockStart t then s.jumpTo t else s.raise .panic

/-! ### Memory access -/

/-- Writes a free value to a register: any 64-bit value, drawn with the counter, which advances (R218, U3; log 4). -/
def State.setRegFree (s : State) (r : Reg) : State :=
  { s.setReg r (Config.freeValue s.freeCount) with freeCount := s.freeCount + 1 }

/-- A load of n bytes at a: the register gets `ext` of the little-endian value; on a page fault the register is
unspecified and the record holds FAULT (R217, R218). -/
def State.load (s : State) (rA : Reg) (a : Addr) (n : Nat) (ext : Word → Word) : State :=
  match s.mem.memRead a n with
  | .ok v => s.setReg rA (ext v)
  | .error f => (s.setRegFree rA).raise (.fault f.address)

/-- A store of the low n bytes of v at a; on a page fault the earlier segments stay written and the record holds FAULT
(R217, R219). -/
def State.store (s : State) (a : Addr) (n : Nat) (v : Word) : State :=
  match s.mem.memWrite a n v with
  | (m, none) => { s with mem := m }
  | (m, some f) => { s with mem := m }.raise (.fault f.address)

/-! ### Heap growth -/

/-- What sbrk does when the request is out of memory, by the policy (R277, R279). -/
def State.sbrkOom (s : State) (policy : SbrkOomPolicy) (rD : Reg) : State :=
  match policy with
  | .returnZero => s.setReg rD 0#64
  | .panic => s.raise .panic

/-- What a heap request of the sbrk instruction gives: the length is the full 64 bits, and one of 2^32 or more is always
out of memory (R279, D24; log 20); else the allocator of R69. -/
def State.heapRequest (s : State) (length : Word) : Option (Nat × Memory) :=
  if length.toNat < Config.memSize then s.mem.growHeap length.toNat else none

/-- `sbrk rD, rA` under a policy (R277, R279). -/
def State.sbrkWith (s : State) (policy : SbrkOomPolicy) (rD rA : Reg) : State :=
  match s.heapRequest (s.reg rA) with
  | some (prev, m) => { s with mem := m }.setReg rD (BitVec.ofNat 64 prev)
  | none => s.sbrkOom policy rD

/-! ### The gas meter (R297) -/

/-- `sub(c)`: the new value and whether it underflowed; after an underflow the value is 0 (R111, R297, D7). -/
def gasSub (gas c : Word) : Word × Bool := if gas.toNat < c.toNat then (0#64, true) else (gas - c, false)

/-! ### The two ends of a step -/

/-- NEXT = (pc + 1 + l) mod 2^32 (R26, R38). -/
def State.nextPc (s : State) (l : Nat) : Addr := s.pc + BitVec.ofNat 32 (1 + l)

/-- HALT, PANIC and OOG are final (R109, R287). -/
def Status.isFinal : Status → Bool
  | .ok => false
  | .host => false
  | .halt => true
  | .panic => true
  | .oog => true

/-- A step begins with STATUS = OK and EXIT_PARAM = none; from HOST that is the return from the host call
(R108, R109, R291). A run has then begun (log 8). -/
def State.resume (s : State) : State := { s with status := .ok, exitParam := none, started := true }

/-- Taking an exception: STATUS, EXIT_PARAM, pc and gas for each kind of the record (R113, R281, R286). Nothing is
saved and there is no vector. -/
def State.takeExit (s : State) (l : Nat) : ExitKind → State
  | .halt => { s with status := .halt, exitParam := none }
  | .panic => { s with status := .panic, exitParam := none }
  | .fault a =>
      { s with
        status := .panic
        exitParam := some a
        gas := (gasSub s.gas (Config.gasCost Config.trapOpcode)).1 }
  | .host n => { s with pc := s.nextPc l, status := .host, exitParam := some n }

/-- Commit: the result record becomes pc, STATUS and EXIT_PARAM, the only place where they change (R113). -/
def State.commit (s : State) (l : Nat) : State :=
  match s.result.kind with
  | some k => s.takeExit l k
  | none =>
      match s.result.nextPc with
      | some t => { s with pc := t, status := .ok, exitParam := none }
      | none => { s with pc := s.nextPc l, status := .ok, exitParam := none }

/-- The opcode byte the next step fetches (R110). -/
def State.fetchOpcode (s : State) : Byte := s.prog.codeByte s.pc.toNat

/-- The instruction at pc and its argument-byte count (R102, R108). -/
def State.fetch (s : State) : Instr × Nat := decode s.prog s.pc

/-- The step's gas check, before every side effect: the state with the cost taken, and whether gas ran out (R111). -/
def State.chargeGas (s : State) : State × Bool :=
  let r := gasSub s.gas (Config.gasCost s.fetchOpcode)
  ({ s with gas := r.1 }, r.2)

/-- The end of a step that ran out of gas: nothing but STATUS (R111). -/
def State.outOfGas (s : State) : State := { s with status := .oog }

end Sys2Proof.Machine
end

