-- ==== Sys2Proof/Machine/Arithmetic.lean ====
section
/-! DEFINITION. The meanings of the arithmetic instructions (41_arithmetic.md R123 to R152): one definition for each instruction, over the
shared operations. Each docstring gives the rule and its pseudocode. -/

namespace Sys2Proof.Machine

/-- `add_imm_32` (R126): `x[rA] <- X4((x[rB] + immX) mod 2^32)`. -/
def execAddImm32 (rA rB : Reg) (immX : Word) (s : State) : Host.Outcome State Fault Refusal :=
  .next (s.regOpImm add32 rA rB immX)

/-- `mul_imm_32` (R127): `x[rA] <- X4((x[rB] · immX) mod 2^32)`. -/
def execMulImm32 (rA rB : Reg) (immX : Word) (s : State) : Host.Outcome State Fault Refusal :=
  .next (s.regOpImm mul32 rA rB immX)

/-- `neg_add_imm_32` (R128): `x[rA] <- X4((immX − x[rB]) mod 2^32)`. -/
def execNegAddImm32 (rA rB : Reg) (immX : Word) (s : State) : Host.Outcome State Fault Refusal :=
  .next (s.regOpImmAlt sub32 rA rB immX)

/-- `add_imm_64` (R129): `x[rA] <- (x[rB] + immX) mod 2^64`. -/
def execAddImm64 (rA rB : Reg) (immX : Word) (s : State) : Host.Outcome State Fault Refusal :=
  .next (s.regOpImm add64 rA rB immX)

/-- `mul_imm_64` (R130): `x[rA] <- (x[rB] · immX) mod 2^64`. -/
def execMulImm64 (rA rB : Reg) (immX : Word) (s : State) : Host.Outcome State Fault Refusal :=
  .next (s.regOpImm mul64 rA rB immX)

/-- `neg_add_imm_64` (R131): `x[rA] <- (immX − x[rB]) mod 2^64`. -/
def execNegAddImm64 (rA rB : Reg) (immX : Word) (s : State) : Host.Outcome State Fault Refusal :=
  .next (s.regOpImmAlt sub64 rA rB immX)

/-- `add_32` (R132): `x[rD] <- X4((x[rA] + x[rB]) mod 2^32)`. -/
def execAdd32 (rD rA rB : Reg) (s : State) : Host.Outcome State Fault Refusal :=
  .next (s.regOp3 add32 rD rA rB)

/-- `sub_32` (R133): `x[rD] <- X4((x[rA] − x[rB]) mod 2^32)`. -/
def execSub32 (rD rA rB : Reg) (s : State) : Host.Outcome State Fault Refusal :=
  .next (s.regOp3 sub32 rD rA rB)

/-- `mul_32` (R134): `x[rD] <- X4((x[rA] · x[rB]) mod 2^32)`. -/
def execMul32 (rD rA rB : Reg) (s : State) : Host.Outcome State Fault Refusal :=
  .next (s.regOp3 mul32 rD rA rB)

/-- `div_u_32` (R135): `b = u32(x[rB]); if b = 0 then x[rD] <- 2^64 − 1 else x[rD] <- X4(u32(x[rA]) ÷ b)`. -/
def execDivU32 (rD rA rB : Reg) (s : State) : Host.Outcome State Fault Refusal :=
  .next (s.regOp3 divU32 rD rA rB)

/-- `div_s_32` (R136): `a = s32(x[rA]); b = s32(x[rB]); if b = 0 then x[rD] <- 2^64 − 1 elif a = −2^31 and b = −1
then x[rD] <- to64(a) else x[rD] <- to64(a ÷ b) -- ÷ truncates toward zero`. -/
def execDivS32 (rD rA rB : Reg) (s : State) : Host.Outcome State Fault Refusal :=
  .next (s.regOp3 divS32 rD rA rB)

/-- `rem_u_32` (R137): `b = u32(x[rB]); if b = 0 then x[rD] <- X4(u32(x[rA])) else x[rD] <- X4(u32(x[rA]) mod b)`. -/
def execRemU32 (rD rA rB : Reg) (s : State) : Host.Outcome State Fault Refusal :=
  .next (s.regOp3 remU32 rD rA rB)

/-- `rem_s_32` (R138): `a = s32(x[rA]); b = s32(x[rB]); if b = 0 then x[rD] <- to64(a) elif a = −2^31 and b = −1
then x[rD] <- 0 else x[rD] <- to64(a − b · (a ÷ b))`. -/
def execRemS32 (rD rA rB : Reg) (s : State) : Host.Outcome State Fault Refusal :=
  .next (s.regOp3 remS32 rD rA rB)

/-- `add_64` (R139): `x[rD] <- (x[rA] + x[rB]) mod 2^64`. -/
def execAdd64 (rD rA rB : Reg) (s : State) : Host.Outcome State Fault Refusal :=
  .next (s.regOp3 add64 rD rA rB)

/-- `sub_64` (R140): `x[rD] <- (x[rA] − x[rB]) mod 2^64`. -/
def execSub64 (rD rA rB : Reg) (s : State) : Host.Outcome State Fault Refusal :=
  .next (s.regOp3 sub64 rD rA rB)

/-- `mul_64` (R141): `x[rD] <- (x[rA] · x[rB]) mod 2^64`. -/
def execMul64 (rD rA rB : Reg) (s : State) : Host.Outcome State Fault Refusal :=
  .next (s.regOp3 mul64 rD rA rB)

/-- `div_u_64` (R142): `if x[rB] = 0 then x[rD] <- 2^64 − 1 else x[rD] <- x[rA] ÷ x[rB]`. -/
def execDivU64 (rD rA rB : Reg) (s : State) : Host.Outcome State Fault Refusal :=
  .next (s.regOp3 divU64 rD rA rB)

/-- `div_s_64` (R143): `a = s64(x[rA]); b = s64(x[rB]); if b = 0 then x[rD] <- 2^64 − 1 elif a = −2^63 and b = −1
then x[rD] <- x[rA] else x[rD] <- to64(a ÷ b)`. -/
def execDivS64 (rD rA rB : Reg) (s : State) : Host.Outcome State Fault Refusal :=
  .next (s.regOp3 divS64 rD rA rB)

/-- `rem_u_64` (R144): `if x[rB] = 0 then x[rD] <- x[rA] else x[rD] <- x[rA] mod x[rB]`. -/
def execRemU64 (rD rA rB : Reg) (s : State) : Host.Outcome State Fault Refusal :=
  .next (s.regOp3 remU64 rD rA rB)

/-- `rem_s_64` (R145): `a = s64(x[rA]); b = s64(x[rB]); if b = 0 then x[rD] <- x[rA] elif a = −2^63 and b = −1 then
x[rD] <- 0 else x[rD] <- to64(a − b · (a ÷ b))`. -/
def execRemS64 (rD rA rB : Reg) (s : State) : Host.Outcome State Fault Refusal :=
  .next (s.regOp3 remS64 rD rA rB)

/-- `mul_upper_s_s` (R146): `x[rD] <- to64(⌊(s64(x[rA]) · s64(x[rB])) / 2^64⌋)`. -/
def execMulUpperSS (rD rA rB : Reg) (s : State) : Host.Outcome State Fault Refusal :=
  .next (s.regOp3 mulUpperSS rD rA rB)

/-- `mul_upper_u_u` (R147): `x[rD] <- ⌊(x[rA] · x[rB]) / 2^64⌋`. -/
def execMulUpperUU (rD rA rB : Reg) (s : State) : Host.Outcome State Fault Refusal :=
  .next (s.regOp3 mulUpperUU rD rA rB)

/-- `mul_upper_s_u` (R148): `x[rD] <- to64(⌊(s64(x[rA]) · x[rB]) / 2^64⌋)`. -/
def execMulUpperSU (rD rA rB : Reg) (s : State) : Host.Outcome State Fault Refusal :=
  .next (s.regOp3 mulUpperSU rD rA rB)

/-- `max` (R149): `x[rD] <- to64(max(s64(x[rA]), s64(x[rB])))`. -/
def execMax (rD rA rB : Reg) (s : State) : Host.Outcome State Fault Refusal :=
  .next (s.regOp3 maxS rD rA rB)

/-- `max_u` (R150): `x[rD] <- max(x[rA], x[rB])`. -/
def execMaxU (rD rA rB : Reg) (s : State) : Host.Outcome State Fault Refusal :=
  .next (s.regOp3 maxU rD rA rB)

/-- `min` (R151): `x[rD] <- to64(min(s64(x[rA]), s64(x[rB])))`. -/
def execMin (rD rA rB : Reg) (s : State) : Host.Outcome State Fault Refusal :=
  .next (s.regOp3 minS rD rA rB)

/-- `min_u` (R152): `x[rD] <- min(x[rA], x[rB])`. -/
def execMinU (rD rA rB : Reg) (s : State) : Host.Outcome State Fault Refusal :=
  .next (s.regOp3 minU rD rA rB)

end Sys2Proof.Machine
end

