-- ==== Sys2Proof/Machine/Bitwise.lean ====
section
/-! DEFINITION. The meanings of the bitwise, shift, rotate, bit-count and extension instructions (42_bitwise_shift.md R153 to R200): one definition for each instruction, over the
shared operations. Each docstring gives the rule and its pseudocode. -/

namespace Sys2Proof.Machine

/-- `and_imm` (R156): `x[rA] <- x[rB] & immX`. -/
def execAndImm (rA rB : Reg) (immX : Word) (s : State) : Host.Outcome State Fault Refusal :=
  .next (s.regOpImm (· &&& ·) rA rB immX)

/-- `xor_imm` (R157): `x[rA] <- x[rB] ^ immX`. -/
def execXorImm (rA rB : Reg) (immX : Word) (s : State) : Host.Outcome State Fault Refusal :=
  .next (s.regOpImm (· ^^^ ·) rA rB immX)

/-- `or_imm` (R158): `x[rA] <- x[rB] | immX`. -/
def execOrImm (rA rB : Reg) (immX : Word) (s : State) : Host.Outcome State Fault Refusal :=
  .next (s.regOpImm (· ||| ·) rA rB immX)

/-- `and` (R159): `x[rD] <- x[rA] & x[rB]`. -/
def execAnd (rD rA rB : Reg) (s : State) : Host.Outcome State Fault Refusal :=
  .next (s.regOp3 (· &&& ·) rD rA rB)

/-- `xor` (R160): `x[rD] <- x[rA] ^ x[rB]`. -/
def execXor (rD rA rB : Reg) (s : State) : Host.Outcome State Fault Refusal :=
  .next (s.regOp3 (· ^^^ ·) rD rA rB)

/-- `or` (R161): `x[rD] <- x[rA] | x[rB]`. -/
def execOr (rD rA rB : Reg) (s : State) : Host.Outcome State Fault Refusal :=
  .next (s.regOp3 (· ||| ·) rD rA rB)

/-- `and_inv` (R162): `x[rD] <- x[rA] & ~x[rB]`. -/
def execAndInv (rD rA rB : Reg) (s : State) : Host.Outcome State Fault Refusal :=
  .next (s.regOp3 andInv rD rA rB)

/-- `or_inv` (R163): `x[rD] <- x[rA] | ~x[rB]`. -/
def execOrInv (rD rA rB : Reg) (s : State) : Host.Outcome State Fault Refusal :=
  .next (s.regOp3 orInv rD rA rB)

/-- `xnor` (R164): `x[rD] <- ~(x[rA] ^ x[rB])`. -/
def execXnor (rD rA rB : Reg) (s : State) : Host.Outcome State Fault Refusal :=
  .next (s.regOp3 xnor rD rA rB)

/-- `shlo_l_imm_32` (R165): `x[rA] <- X4((x[rB] << (immX mod 32)) mod 2^32)`. -/
def execShloLImm32 (rA rB : Reg) (immX : Word) (s : State) : Host.Outcome State Fault Refusal :=
  .next (s.regOpImm shloL32 rA rB immX)

/-- `shlo_r_imm_32` (R166): `x[rA] <- X4(u32(x[rB]) >> (immX mod 32))`. -/
def execShloRImm32 (rA rB : Reg) (immX : Word) (s : State) : Host.Outcome State Fault Refusal :=
  .next (s.regOpImm shloR32 rA rB immX)

/-- `shar_r_imm_32` (R167): `x[rA] <- to64(s32(x[rB]) >> (immX mod 32)) -- arithmetic shift`. -/
def execSharRImm32 (rA rB : Reg) (immX : Word) (s : State) : Host.Outcome State Fault Refusal :=
  .next (s.regOpImm sharR32 rA rB immX)

/-- `shlo_l_imm_alt_32` (R168): `x[rA] <- X4((immX << (x[rB] mod 32)) mod 2^32)`. -/
def execShloLImmAlt32 (rA rB : Reg) (immX : Word) (s : State) : Host.Outcome State Fault Refusal :=
  .next (s.regOpImmAlt shloL32 rA rB immX)

/-- `shlo_r_imm_alt_32` (R169): `x[rA] <- X4(u32(immX) >> (x[rB] mod 32))`. -/
def execShloRImmAlt32 (rA rB : Reg) (immX : Word) (s : State) : Host.Outcome State Fault Refusal :=
  .next (s.regOpImmAlt shloR32 rA rB immX)

/-- `shar_r_imm_alt_32` (R170): `x[rA] <- to64(s32(immX) >> (x[rB] mod 32))`. -/
def execSharRImmAlt32 (rA rB : Reg) (immX : Word) (s : State) : Host.Outcome State Fault Refusal :=
  .next (s.regOpImmAlt sharR32 rA rB immX)

/-- `shlo_l_imm_64` (R171): `x[rA] <- (x[rB] << (immX mod 64)) mod 2^64`. -/
def execShloLImm64 (rA rB : Reg) (immX : Word) (s : State) : Host.Outcome State Fault Refusal :=
  .next (s.regOpImm shloL64 rA rB immX)

/-- `shlo_r_imm_64` (R172): `x[rA] <- x[rB] >> (immX mod 64)`. -/
def execShloRImm64 (rA rB : Reg) (immX : Word) (s : State) : Host.Outcome State Fault Refusal :=
  .next (s.regOpImm shloR64 rA rB immX)

/-- `shar_r_imm_64` (R173): `x[rA] <- to64(s64(x[rB]) >> (immX mod 64)) -- arithmetic shift`. -/
def execSharRImm64 (rA rB : Reg) (immX : Word) (s : State) : Host.Outcome State Fault Refusal :=
  .next (s.regOpImm sharR64 rA rB immX)

/-- `shlo_l_imm_alt_64` (R174): `x[rA] <- (immX << (x[rB] mod 64)) mod 2^64`. -/
def execShloLImmAlt64 (rA rB : Reg) (immX : Word) (s : State) : Host.Outcome State Fault Refusal :=
  .next (s.regOpImmAlt shloL64 rA rB immX)

/-- `shlo_r_imm_alt_64` (R175): `x[rA] <- immX >> (x[rB] mod 64)`. -/
def execShloRImmAlt64 (rA rB : Reg) (immX : Word) (s : State) : Host.Outcome State Fault Refusal :=
  .next (s.regOpImmAlt shloR64 rA rB immX)

/-- `shar_r_imm_alt_64` (R176): `x[rA] <- to64(s64(immX) >> (x[rB] mod 64))`. -/
def execSharRImmAlt64 (rA rB : Reg) (immX : Word) (s : State) : Host.Outcome State Fault Refusal :=
  .next (s.regOpImmAlt sharR64 rA rB immX)

/-- `shlo_l_32` (R177): `x[rD] <- X4((x[rA] << (x[rB] mod 32)) mod 2^32)`. -/
def execShloL32 (rD rA rB : Reg) (s : State) : Host.Outcome State Fault Refusal :=
  .next (s.regOp3 shloL32 rD rA rB)

/-- `shlo_r_32` (R178): `x[rD] <- X4(u32(x[rA]) >> (x[rB] mod 32))`. -/
def execShloR32 (rD rA rB : Reg) (s : State) : Host.Outcome State Fault Refusal :=
  .next (s.regOp3 shloR32 rD rA rB)

/-- `shar_r_32` (R179): `x[rD] <- to64(s32(x[rA]) >> (x[rB] mod 32))`. -/
def execSharR32 (rD rA rB : Reg) (s : State) : Host.Outcome State Fault Refusal :=
  .next (s.regOp3 sharR32 rD rA rB)

/-- `shlo_l_64` (R180): `x[rD] <- (x[rA] << (x[rB] mod 64)) mod 2^64`. -/
def execShloL64 (rD rA rB : Reg) (s : State) : Host.Outcome State Fault Refusal :=
  .next (s.regOp3 shloL64 rD rA rB)

/-- `shlo_r_64` (R181): `x[rD] <- x[rA] >> (x[rB] mod 64)`. -/
def execShloR64 (rD rA rB : Reg) (s : State) : Host.Outcome State Fault Refusal :=
  .next (s.regOp3 shloR64 rD rA rB)

/-- `shar_r_64` (R182): `x[rD] <- to64(s64(x[rA]) >> (x[rB] mod 64))`. -/
def execSharR64 (rD rA rB : Reg) (s : State) : Host.Outcome State Fault Refusal :=
  .next (s.regOp3 sharR64 rD rA rB)

/-- `rot_r_64_imm` (R183): `x[rA] <- rotr_64(x[rB], immX mod 64)`. -/
def execRotR64Imm (rA rB : Reg) (immX : Word) (s : State) : Host.Outcome State Fault Refusal :=
  .next (s.regOpImm rotR64 rA rB immX)

/-- `rot_r_64_imm_alt` (R184): `x[rA] <- rotr_64(immX, x[rB] mod 64)`. -/
def execRotR64ImmAlt (rA rB : Reg) (immX : Word) (s : State) : Host.Outcome State Fault Refusal :=
  .next (s.regOpImmAlt rotR64 rA rB immX)

/-- `rot_r_32_imm` (R185): `x[rA] <- X4(rotr_32(u32(x[rB]), immX mod 32))`. -/
def execRotR32Imm (rA rB : Reg) (immX : Word) (s : State) : Host.Outcome State Fault Refusal :=
  .next (s.regOpImm rotR32 rA rB immX)

/-- `rot_r_32_imm_alt` (R186): `x[rA] <- X4(rotr_32(u32(immX), x[rB] mod 32))`. -/
def execRotR32ImmAlt (rA rB : Reg) (immX : Word) (s : State) : Host.Outcome State Fault Refusal :=
  .next (s.regOpImmAlt rotR32 rA rB immX)

/-- `rot_l_64` (R187): `x[rD] <- rotl_64(x[rA], x[rB] mod 64)`. -/
def execRotL64 (rD rA rB : Reg) (s : State) : Host.Outcome State Fault Refusal :=
  .next (s.regOp3 rotL64 rD rA rB)

/-- `rot_l_32` (R188): `x[rD] <- X4(rotl_32(u32(x[rA]), x[rB] mod 32))`. -/
def execRotL32 (rD rA rB : Reg) (s : State) : Host.Outcome State Fault Refusal :=
  .next (s.regOp3 rotL32 rD rA rB)

/-- `rot_r_64` (R189): `x[rD] <- rotr_64(x[rA], x[rB] mod 64)`. -/
def execRotR64 (rD rA rB : Reg) (s : State) : Host.Outcome State Fault Refusal :=
  .next (s.regOp3 rotR64 rD rA rB)

/-- `rot_r_32` (R190): `x[rD] <- X4(rotr_32(u32(x[rA]), x[rB] mod 32))`. -/
def execRotR32 (rD rA rB : Reg) (s : State) : Host.Outcome State Fault Refusal :=
  .next (s.regOp3 rotR32 rD rA rB)

/-- `count_set_bits_64` (R191): `x[rD] <- popcount(x[rA])`. -/
def execCountSetBits64 (rD rA : Reg) (s : State) : Host.Outcome State Fault Refusal :=
  .next (s.regOp2 (popcount 64) rD rA)

/-- `count_set_bits_32` (R192): `x[rD] <- popcount(u32(x[rA]))`. -/
def execCountSetBits32 (rD rA : Reg) (s : State) : Host.Outcome State Fault Refusal :=
  .next (s.regOp2 (popcount 32) rD rA)

/-- `leading_zero_bits_64` (R193): `x[rD] <- clz_64(x[rA])`. -/
def execLeadingZeroBits64 (rD rA : Reg) (s : State) : Host.Outcome State Fault Refusal :=
  .next (s.regOp2 (clz 64) rD rA)

/-- `leading_zero_bits_32` (R194): `x[rD] <- clz_32(u32(x[rA]))`. -/
def execLeadingZeroBits32 (rD rA : Reg) (s : State) : Host.Outcome State Fault Refusal :=
  .next (s.regOp2 (clz 32) rD rA)

/-- `trailing_zero_bits_64` (R195): `x[rD] <- ctz_64(x[rA])`. -/
def execTrailingZeroBits64 (rD rA : Reg) (s : State) : Host.Outcome State Fault Refusal :=
  .next (s.regOp2 (ctz 64) rD rA)

/-- `trailing_zero_bits_32` (R196): `x[rD] <- ctz_32(u32(x[rA]))`. -/
def execTrailingZeroBits32 (rD rA : Reg) (s : State) : Host.Outcome State Fault Refusal :=
  .next (s.regOp2 (ctz 32) rD rA)

/-- `sign_extend_8` (R197): `x[rD] <- sext_8(x[rA])`. -/
def execSignExtend8 (rD rA : Reg) (s : State) : Host.Outcome State Fault Refusal :=
  .next (s.regOp2 (sextN 8) rD rA)

/-- `sign_extend_16` (R198): `x[rD] <- sext_16(x[rA])`. -/
def execSignExtend16 (rD rA : Reg) (s : State) : Host.Outcome State Fault Refusal :=
  .next (s.regOp2 (sextN 16) rD rA)

/-- `zero_extend_16` (R199): `x[rD] <- zext_16(x[rA])`. -/
def execZeroExtend16 (rD rA : Reg) (s : State) : Host.Outcome State Fault Refusal :=
  .next (s.regOp2 (zextN 16) rD rA)

/-- `reverse_bytes` (R200): `x[rD] <- bswap64(x[rA])`. -/
def execReverseBytes (rD rA : Reg) (s : State) : Host.Outcome State Fault Refusal :=
  .next (s.regOp2 bswap64 rD rA)

end Sys2Proof.Machine
end

