-- ==== Sys2Proof/Machine/Flags.lean ====
section
/-! DEFINITION. The block has no flags and no condition codes (R41). The conditions that compares and branches evaluate
from their operands stand here instead (R201, R251): each compares all 64 bits. -/

namespace Sys2Proof.Machine

/-- Equality. -/
def condEq (a b : Word) : Bool := a == b
/-- Inequality. -/
def condNe (a b : Word) : Bool := a != b
/-- `a < b`, unsigned. -/
def condLtU (a b : Word) : Bool := decide (a.toNat < b.toNat)
/-- `a ≤ b`, unsigned. -/
def condLeU (a b : Word) : Bool := decide (a.toNat ≤ b.toNat)
/-- `a ≥ b`, unsigned. -/
def condGeU (a b : Word) : Bool := decide (b.toNat ≤ a.toNat)
/-- `a > b`, unsigned. -/
def condGtU (a b : Word) : Bool := decide (b.toNat < a.toNat)
/-- `s64(a) < s64(b)`. -/
def condLtS (a b : Word) : Bool := decide (s64 a < s64 b)
/-- `s64(a) ≤ s64(b)`. -/
def condLeS (a b : Word) : Bool := decide (s64 a ≤ s64 b)
/-- `s64(a) ≥ s64(b)`. -/
def condGeS (a b : Word) : Bool := decide (s64 b ≤ s64 a)
/-- `s64(a) > s64(b)`. -/
def condGtS (a b : Word) : Bool := decide (s64 b < s64 a)

/-- The result of a set-on-compare: exactly 0 or 1 (R201). -/
def boolWord (c : Bool) : Word := if c then 1#64 else 0#64

end Sys2Proof.Machine
end

