-- ==== Sys2Proof/Machine/CompareMove.lean ====
section
/-! DEFINITION. The meanings of the compares, moves and conditional moves (43_compare_move.md R201 to R215): one definition for each instruction, over the
shared operations. Each docstring gives the rule and its pseudocode. -/

namespace Sys2Proof.Machine

/-- `set_lt_u_imm` (R203): `x[rA] <- (x[rB] < immX) ? 1 : 0 -- unsigned 64-bit`. -/
def execSetLtUImm (rA rB : Reg) (immX : Word) (s : State) : Host.Outcome State Fault Refusal :=
  .next (s.regOpImm (fun a b => boolWord (condLtU a b)) rA rB immX)

/-- `set_lt_s_imm` (R204): `x[rA] <- (s64(x[rB]) < s64(immX)) ? 1 : 0`. -/
def execSetLtSImm (rA rB : Reg) (immX : Word) (s : State) : Host.Outcome State Fault Refusal :=
  .next (s.regOpImm (fun a b => boolWord (condLtS a b)) rA rB immX)

/-- `set_gt_u_imm` (R205): `x[rA] <- (x[rB] > immX) ? 1 : 0 -- unsigned 64-bit`. -/
def execSetGtUImm (rA rB : Reg) (immX : Word) (s : State) : Host.Outcome State Fault Refusal :=
  .next (s.regOpImm (fun a b => boolWord (condGtU a b)) rA rB immX)

/-- `set_gt_s_imm` (R206): `x[rA] <- (s64(x[rB]) > s64(immX)) ? 1 : 0`. -/
def execSetGtSImm (rA rB : Reg) (immX : Word) (s : State) : Host.Outcome State Fault Refusal :=
  .next (s.regOpImm (fun a b => boolWord (condGtS a b)) rA rB immX)

/-- `set_lt_u` (R207): `x[rD] <- (x[rA] < x[rB]) ? 1 : 0 -- unsigned 64-bit`. -/
def execSetLtU (rD rA rB : Reg) (s : State) : Host.Outcome State Fault Refusal :=
  .next (s.regOp3 (fun a b => boolWord (condLtU a b)) rD rA rB)

/-- `set_lt_s` (R208): `x[rD] <- (s64(x[rA]) < s64(x[rB])) ? 1 : 0`. -/
def execSetLtS (rD rA rB : Reg) (s : State) : Host.Outcome State Fault Refusal :=
  .next (s.regOp3 (fun a b => boolWord (condLtS a b)) rD rA rB)

/-- `move_reg` (R209): `x[rD] <- x[rA]`. -/
def execMoveReg (rD rA : Reg) (s : State) : Host.Outcome State Fault Refusal :=
  .next (s.regOp2 id rD rA)

/-- `cmov_iz_imm` (R210): `if x[rB] = 0 then x[rA] <- immX -- otherwise x[rA] unchanged`. -/
def execCmovIzImm (rA rB : Reg) (immX : Word) (s : State) : Host.Outcome State Fault Refusal :=
  .next (s.condMove (condEq (s.reg rB) 0#64) rA immX)

/-- `cmov_nz_imm` (R211): `if x[rB] ≠ 0 then x[rA] <- immX -- otherwise x[rA] unchanged`. -/
def execCmovNzImm (rA rB : Reg) (immX : Word) (s : State) : Host.Outcome State Fault Refusal :=
  .next (s.condMove (condNe (s.reg rB) 0#64) rA immX)

/-- `cmov_iz` (R212): `if x[rB] = 0 then x[rD] <- x[rA] -- otherwise x[rD] unchanged`. -/
def execCmovIz (rD rA rB : Reg) (s : State) : Host.Outcome State Fault Refusal :=
  .next (s.condMove (condEq (s.reg rB) 0#64) rD (s.reg rA))

/-- `cmov_nz` (R213): `if x[rB] ≠ 0 then x[rD] <- x[rA] -- otherwise x[rD] unchanged`. -/
def execCmovNz (rD rA rB : Reg) (s : State) : Host.Outcome State Fault Refusal :=
  .next (s.condMove (condNe (s.reg rB) 0#64) rD (s.reg rA))

/-- `load_imm` (R214): `x[rA] <- immX -- the 0..4-byte field sign-extended to 64 bits`. -/
def execLoadImm (rA : Reg) (immX : Word) (s : State) : Host.Outcome State Fault Refusal :=
  .next (s.setReg rA immX)

/-- `load_imm_64` (R215): `x[rA] <- immX -- 8 raw little-endian bytes`. -/
def execLoadImm64 (rA : Reg) (immX : Word) (s : State) : Host.Outcome State Fault Refusal :=
  .next (s.setReg rA immX)

end Sys2Proof.Machine
end

