-- ==== Sys2Proof/Machine/Control.lean ====
section
/-! DEFINITION. The meanings of trap, fallthrough, the jumps and the branches (45_control.md R251 to R275): one definition for each instruction, over the
shared operations. Each docstring gives the rule and its pseudocode. -/

namespace Sys2Proof.Machine

/-- `trap` (R254): `raise Panic`. -/
def execTrap (s : State) : Host.Outcome State Fault Refusal :=
  .next (s.raise .panic)

/-- `fallthrough` (R255): `(nothing) -- pc <- NEXT by commit`. -/
def execFallthrough (s : State) : Host.Outcome State Fault Refusal :=
  .next s

/-- `jump` (R256): `branch(target, true)`. -/
def execJump (target : Addr) (s : State) : Host.Outcome State Fault Refusal :=
  .next (s.branch target true)

/-- `jump_ind` (R257): `djump((x[rA] + immX) mod 2^32)`. -/
def execJumpInd (rA : Reg) (immX : Word) (s : State) : Host.Outcome State Fault Refusal :=
  .next (s.djump (s.indAddr rA immX))

/-- `load_imm_jump` (R258): `x[rA] <- immX ; branch(target, true)`. -/
def execLoadImmJump (rA : Reg) (immX : Word) (target : Addr) (s : State) : Host.Outcome State Fault Refusal :=
  .next ((s.setReg rA immX).branch target true)

/-- `load_imm_jump_ind` (R259): `a <- (x[rB] + immY) mod 2^32 ; x[rA] <- immX ; djump(a)`. -/
def execLoadImmJumpInd (rA rB : Reg) (immX immY : Word) (s : State) : Host.Outcome State Fault Refusal :=
  .next ((s.setReg rA immX).djump (s.indAddr rB immY))

/-- `branch_eq_imm` (R260): `branch(target, x[rA] = immX)`. -/
def execBranchEqImm (rA : Reg) (immX : Word) (target : Addr) (s : State) : Host.Outcome State Fault Refusal :=
  .next (s.branch target (condEq (s.reg rA) immX))

/-- `branch_ne_imm` (R261): `branch(target, x[rA] ≠ immX)`. -/
def execBranchNeImm (rA : Reg) (immX : Word) (target : Addr) (s : State) : Host.Outcome State Fault Refusal :=
  .next (s.branch target (condNe (s.reg rA) immX))

/-- `branch_lt_u_imm` (R262): `branch(target, x[rA] < immX)`. -/
def execBranchLtUImm (rA : Reg) (immX : Word) (target : Addr) (s : State) : Host.Outcome State Fault Refusal :=
  .next (s.branch target (condLtU (s.reg rA) immX))

/-- `branch_le_u_imm` (R263): `branch(target, x[rA] ≤ immX)`. -/
def execBranchLeUImm (rA : Reg) (immX : Word) (target : Addr) (s : State) : Host.Outcome State Fault Refusal :=
  .next (s.branch target (condLeU (s.reg rA) immX))

/-- `branch_ge_u_imm` (R264): `branch(target, x[rA] ≥ immX)`. -/
def execBranchGeUImm (rA : Reg) (immX : Word) (target : Addr) (s : State) : Host.Outcome State Fault Refusal :=
  .next (s.branch target (condGeU (s.reg rA) immX))

/-- `branch_gt_u_imm` (R265): `branch(target, x[rA] > immX)`. -/
def execBranchGtUImm (rA : Reg) (immX : Word) (target : Addr) (s : State) : Host.Outcome State Fault Refusal :=
  .next (s.branch target (condGtU (s.reg rA) immX))

/-- `branch_lt_s_imm` (R266): `branch(target, s64(x[rA]) < s64(immX))`. -/
def execBranchLtSImm (rA : Reg) (immX : Word) (target : Addr) (s : State) : Host.Outcome State Fault Refusal :=
  .next (s.branch target (condLtS (s.reg rA) immX))

/-- `branch_le_s_imm` (R267): `branch(target, s64(x[rA]) ≤ s64(immX))`. -/
def execBranchLeSImm (rA : Reg) (immX : Word) (target : Addr) (s : State) : Host.Outcome State Fault Refusal :=
  .next (s.branch target (condLeS (s.reg rA) immX))

/-- `branch_ge_s_imm` (R268): `branch(target, s64(x[rA]) ≥ s64(immX))`. -/
def execBranchGeSImm (rA : Reg) (immX : Word) (target : Addr) (s : State) : Host.Outcome State Fault Refusal :=
  .next (s.branch target (condGeS (s.reg rA) immX))

/-- `branch_gt_s_imm` (R269): `branch(target, s64(x[rA]) > s64(immX))`. -/
def execBranchGtSImm (rA : Reg) (immX : Word) (target : Addr) (s : State) : Host.Outcome State Fault Refusal :=
  .next (s.branch target (condGtS (s.reg rA) immX))

/-- `branch_eq` (R270): `branch(target, x[rA] = x[rB])`. -/
def execBranchEq (rA rB : Reg) (target : Addr) (s : State) : Host.Outcome State Fault Refusal :=
  .next (s.branch target (condEq (s.reg rA) (s.reg rB)))

/-- `branch_ne` (R271): `branch(target, x[rA] ≠ x[rB])`. -/
def execBranchNe (rA rB : Reg) (target : Addr) (s : State) : Host.Outcome State Fault Refusal :=
  .next (s.branch target (condNe (s.reg rA) (s.reg rB)))

/-- `branch_lt_u` (R272): `branch(target, x[rA] < x[rB])`. -/
def execBranchLtU (rA rB : Reg) (target : Addr) (s : State) : Host.Outcome State Fault Refusal :=
  .next (s.branch target (condLtU (s.reg rA) (s.reg rB)))

/-- `branch_lt_s` (R273): `branch(target, s64(x[rA]) < s64(x[rB]))`. -/
def execBranchLtS (rA rB : Reg) (target : Addr) (s : State) : Host.Outcome State Fault Refusal :=
  .next (s.branch target (condLtS (s.reg rA) (s.reg rB)))

/-- `branch_ge_u` (R274): `branch(target, x[rA] ≥ x[rB])`. -/
def execBranchGeU (rA rB : Reg) (target : Addr) (s : State) : Host.Outcome State Fault Refusal :=
  .next (s.branch target (condGeU (s.reg rA) (s.reg rB)))

/-- `branch_ge_s` (R275): `branch(target, s64(x[rA]) ≥ s64(x[rB]))`. -/
def execBranchGeS (rA rB : Reg) (target : Addr) (s : State) : Host.Outcome State Fault Refusal :=
  .next (s.branch target (condGeS (s.reg rA) (s.reg rB)))

end Sys2Proof.Machine
end

