-- ==== Sys2Proof/Machine/LoadStore.lean ====
section
/-! DEFINITION. The meanings of the loads and stores (44_load_store.md R216 to R250): one definition for each instruction, over the
shared operations. Each docstring gives the rule and its pseudocode. -/

namespace Sys2Proof.Machine

/-- `load_u8` (R221): `x[rA] <- MemRead(u32(immX), 1)`. -/
def execLoadU8 (rA : Reg) (immX : Word) (s : State) : Host.Outcome State Fault Refusal :=
  .next (s.load rA (absAddr immX) 1 id)

/-- `load_i8` (R222): `x[rA] <- sext_8(MemRead(u32(immX), 1))`. -/
def execLoadI8 (rA : Reg) (immX : Word) (s : State) : Host.Outcome State Fault Refusal :=
  .next (s.load rA (absAddr immX) 1 (sextN 8))

/-- `load_u16` (R223): `x[rA] <- MemRead(u32(immX), 2)`. -/
def execLoadU16 (rA : Reg) (immX : Word) (s : State) : Host.Outcome State Fault Refusal :=
  .next (s.load rA (absAddr immX) 2 id)

/-- `load_i16` (R224): `x[rA] <- sext_16(MemRead(u32(immX), 2))`. -/
def execLoadI16 (rA : Reg) (immX : Word) (s : State) : Host.Outcome State Fault Refusal :=
  .next (s.load rA (absAddr immX) 2 (sextN 16))

/-- `load_u32` (R225): `x[rA] <- MemRead(u32(immX), 4)`. -/
def execLoadU32 (rA : Reg) (immX : Word) (s : State) : Host.Outcome State Fault Refusal :=
  .next (s.load rA (absAddr immX) 4 id)

/-- `load_i32` (R226): `x[rA] <- sext_32(MemRead(u32(immX), 4))`. -/
def execLoadI32 (rA : Reg) (immX : Word) (s : State) : Host.Outcome State Fault Refusal :=
  .next (s.load rA (absAddr immX) 4 (sextN 32))

/-- `load_u64` (R227): `x[rA] <- MemRead(u32(immX), 8)`. -/
def execLoadU64 (rA : Reg) (immX : Word) (s : State) : Host.Outcome State Fault Refusal :=
  .next (s.load rA (absAddr immX) 8 id)

/-- `load_ind_u8` (R228): `x[rA] <- MemRead((x[rB] + immX) mod 2^32, 1)`. -/
def execLoadIndU8 (rA rB : Reg) (immX : Word) (s : State) : Host.Outcome State Fault Refusal :=
  .next (s.load rA (s.indAddr rB immX) 1 id)

/-- `load_ind_i8` (R229): `x[rA] <- sext_8(MemRead((x[rB] + immX) mod 2^32, 1))`. -/
def execLoadIndI8 (rA rB : Reg) (immX : Word) (s : State) : Host.Outcome State Fault Refusal :=
  .next (s.load rA (s.indAddr rB immX) 1 (sextN 8))

/-- `load_ind_u16` (R230): `x[rA] <- MemRead((x[rB] + immX) mod 2^32, 2)`. -/
def execLoadIndU16 (rA rB : Reg) (immX : Word) (s : State) : Host.Outcome State Fault Refusal :=
  .next (s.load rA (s.indAddr rB immX) 2 id)

/-- `load_ind_i16` (R231): `x[rA] <- sext_16(MemRead((x[rB] + immX) mod 2^32, 2))`. -/
def execLoadIndI16 (rA rB : Reg) (immX : Word) (s : State) : Host.Outcome State Fault Refusal :=
  .next (s.load rA (s.indAddr rB immX) 2 (sextN 16))

/-- `load_ind_u32` (R232): `x[rA] <- MemRead((x[rB] + immX) mod 2^32, 4)`. -/
def execLoadIndU32 (rA rB : Reg) (immX : Word) (s : State) : Host.Outcome State Fault Refusal :=
  .next (s.load rA (s.indAddr rB immX) 4 id)

/-- `load_ind_i32` (R233): `x[rA] <- sext_32(MemRead((x[rB] + immX) mod 2^32, 4))`. -/
def execLoadIndI32 (rA rB : Reg) (immX : Word) (s : State) : Host.Outcome State Fault Refusal :=
  .next (s.load rA (s.indAddr rB immX) 4 (sextN 32))

/-- `load_ind_u64` (R234): `x[rA] <- MemRead((x[rB] + immX) mod 2^32, 8)`. -/
def execLoadIndU64 (rA rB : Reg) (immX : Word) (s : State) : Host.Outcome State Fault Refusal :=
  .next (s.load rA (s.indAddr rB immX) 8 id)

/-- `store_u8` (R235): `MemWrite(u32(immX), 1, x[rA])`. -/
def execStoreU8 (rA : Reg) (immX : Word) (s : State) : Host.Outcome State Fault Refusal :=
  .next (s.store (absAddr immX) 1 (s.reg rA))

/-- `store_u16` (R236): `MemWrite(u32(immX), 2, x[rA])`. -/
def execStoreU16 (rA : Reg) (immX : Word) (s : State) : Host.Outcome State Fault Refusal :=
  .next (s.store (absAddr immX) 2 (s.reg rA))

/-- `store_u32` (R237): `MemWrite(u32(immX), 4, x[rA])`. -/
def execStoreU32 (rA : Reg) (immX : Word) (s : State) : Host.Outcome State Fault Refusal :=
  .next (s.store (absAddr immX) 4 (s.reg rA))

/-- `store_u64` (R238): `MemWrite(u32(immX), 8, x[rA])`. -/
def execStoreU64 (rA : Reg) (immX : Word) (s : State) : Host.Outcome State Fault Refusal :=
  .next (s.store (absAddr immX) 8 (s.reg rA))

/-- `store_ind_u8` (R239): `MemWrite((x[rB] + immX) mod 2^32, 1, x[rA])`. -/
def execStoreIndU8 (rA rB : Reg) (immX : Word) (s : State) : Host.Outcome State Fault Refusal :=
  .next (s.store (s.indAddr rB immX) 1 (s.reg rA))

/-- `store_ind_u16` (R240): `MemWrite((x[rB] + immX) mod 2^32, 2, x[rA])`. -/
def execStoreIndU16 (rA rB : Reg) (immX : Word) (s : State) : Host.Outcome State Fault Refusal :=
  .next (s.store (s.indAddr rB immX) 2 (s.reg rA))

/-- `store_ind_u32` (R241): `MemWrite((x[rB] + immX) mod 2^32, 4, x[rA])`. -/
def execStoreIndU32 (rA rB : Reg) (immX : Word) (s : State) : Host.Outcome State Fault Refusal :=
  .next (s.store (s.indAddr rB immX) 4 (s.reg rA))

/-- `store_ind_u64` (R242): `MemWrite((x[rB] + immX) mod 2^32, 8, x[rA])`. -/
def execStoreIndU64 (rA rB : Reg) (immX : Word) (s : State) : Host.Outcome State Fault Refusal :=
  .next (s.store (s.indAddr rB immX) 8 (s.reg rA))

/-- `store_imm_u8` (R243): `MemWrite(u32(immX), 1, immY)`. -/
def execStoreImmU8 (immX immY : Word) (s : State) : Host.Outcome State Fault Refusal :=
  .next (s.store (absAddr immX) 1 immY)

/-- `store_imm_u16` (R244): `MemWrite(u32(immX), 2, immY)`. -/
def execStoreImmU16 (immX immY : Word) (s : State) : Host.Outcome State Fault Refusal :=
  .next (s.store (absAddr immX) 2 immY)

/-- `store_imm_u32` (R245): `MemWrite(u32(immX), 4, immY)`. -/
def execStoreImmU32 (immX immY : Word) (s : State) : Host.Outcome State Fault Refusal :=
  .next (s.store (absAddr immX) 4 immY)

/-- `store_imm_u64` (R246): `MemWrite(u32(immX), 8, immY)`. -/
def execStoreImmU64 (immX immY : Word) (s : State) : Host.Outcome State Fault Refusal :=
  .next (s.store (absAddr immX) 8 immY)

/-- `store_imm_ind_u8` (R247): `MemWrite((x[rA] + immX) mod 2^32, 1, immY)`. -/
def execStoreImmIndU8 (rA : Reg) (immX immY : Word) (s : State) : Host.Outcome State Fault Refusal :=
  .next (s.store (s.indAddr rA immX) 1 immY)

/-- `store_imm_ind_u16` (R248): `MemWrite((x[rA] + immX) mod 2^32, 2, immY)`. -/
def execStoreImmIndU16 (rA : Reg) (immX immY : Word) (s : State) : Host.Outcome State Fault Refusal :=
  .next (s.store (s.indAddr rA immX) 2 immY)

/-- `store_imm_ind_u32` (R249): `MemWrite((x[rA] + immX) mod 2^32, 4, immY)`. -/
def execStoreImmIndU32 (rA : Reg) (immX immY : Word) (s : State) : Host.Outcome State Fault Refusal :=
  .next (s.store (s.indAddr rA immX) 4 immY)

/-- `store_imm_ind_u64` (R250): `MemWrite((x[rA] + immX) mod 2^32, 8, immY)`. -/
def execStoreImmIndU64 (rA : Reg) (immX immY : Word) (s : State) : Host.Outcome State Fault Refusal :=
  .next (s.store (s.indAddr rA immX) 8 immY)

end Sys2Proof.Machine
end

