-- ==== Sys2Proof/Machine/System.lean ====
section
/-! DEFINITION. The meanings of the host-call trap and heap growth (46_system.md R276 to R279): one definition for each instruction, over the
shared operations. Each docstring gives the rule and its pseudocode. -/

namespace Sys2Proof.Machine

/-- `ecalli` (R278): `raise Host(u32(immX))`. -/
def execEcalli (immX : Word) (s : State) : Host.Outcome State Fault Refusal :=
  .next (s.raise (.host (u32 immX)))

/-- `sbrk` (R279): `r <- sbrk(x[rA]) -- 20_memory.md rule R69 ; if r = OOM: (SBRK_OOM_POLICY = ReturnZero: x[rD] <-
0) | (SBRK_OOM_POLICY = Panic: raise Panic) ; else: x[rD] <- r`. A length of 2^32 or more is OOM (D24;
log 20). -/
def execSbrk (rD rA : Reg) (s : State) : Host.Outcome State Fault Refusal :=
  .next (s.sbrkWith Config.sbrkOomPolicy rD rA)

end Sys2Proof.Machine
end

