-- ==== Sys2Proof/Machine/Step.lean ====
section
/-! DEFINITION. One step of the block, `nextStep()` (40_dispatch.md R108), and the loading of a one-instruction program
with which the host tries a single instruction. -/

namespace Sys2Proof.Machine

/-- The step's operation and commit, after the gas check: decode at pc, clear the record, run the operation, commit it
with the instruction's argument-byte count (R108). -/
def runFetched (s : State) : Host.Outcome State Fault Refusal :=
  match exec s.fetch.1 s.clearResult with
  | .next t => .next (t.commit s.fetch.2)
  | .fault r => .fault r
  | .refused r => .refused r

/-- `nextStep()`: nothing in a final status (R287); else STATUS <- OK, the gas check, and the instruction at pc
(R108, R109, R111). -/
def step (s : State) : Host.Outcome State Fault Refusal :=
  if s.status.isFinal then .next s
  else
    match s.resume.chargeGas with
    | (t, true) => .next t.outOfGas
    | (t, false) => runFetched t

/-- The state with a program of one instruction loaded, as a reset with that program would load it (R301, R302): the
program image and its block starts, the pc at its first byte, gas for one instruction where there is less, and STATUS
OK where it is final. The rest of the state is unchanged (log 3). -/
def State.withFetchWord (s : State) (nbits w : Nat) : State :=
  let p := tableProgram nbits w s.prog.jumpTable
  { s with
    prog := p
    blocks := p.basicBlocks
    pc := 0#32
    gas := if s.gas.toNat < (Config.gasCost (p.codeByte 0)).toNat then Config.gasCost (p.codeByte 0) else s.gas
    status := if s.status.isFinal then .ok else s.status }

end Sys2Proof.Machine
end

