-- ==== Sys2Proof/Machine/Assembler.lean ====
section
/-! DEFINITION. The assembler notation in which the spec writes instructions (30_encoding.md R107): destination first,
registers r0..r12, immediates in decimal, branch targets as absolute code offsets. -/

namespace Sys2Proof

/-- The mnemonic of an instruction, as the opcode map spells it (R103). -/
def Instr.mnemonic : Instr → String
  | .trap => "trap"
  | .fallthrough => "fallthrough"
  | .ecalli .. => "ecalli"
  | .loadImm64 .. => "load_imm_64"
  | .storeImmU8 .. => "store_imm_u8"
  | .storeImmU16 .. => "store_imm_u16"
  | .storeImmU32 .. => "store_imm_u32"
  | .storeImmU64 .. => "store_imm_u64"
  | .jump .. => "jump"
  | .jumpInd .. => "jump_ind"
  | .loadImm .. => "load_imm"
  | .loadU8 .. => "load_u8"
  | .loadI8 .. => "load_i8"
  | .loadU16 .. => "load_u16"
  | .loadI16 .. => "load_i16"
  | .loadU32 .. => "load_u32"
  | .loadI32 .. => "load_i32"
  | .loadU64 .. => "load_u64"
  | .storeU8 .. => "store_u8"
  | .storeU16 .. => "store_u16"
  | .storeU32 .. => "store_u32"
  | .storeU64 .. => "store_u64"
  | .storeImmIndU8 .. => "store_imm_ind_u8"
  | .storeImmIndU16 .. => "store_imm_ind_u16"
  | .storeImmIndU32 .. => "store_imm_ind_u32"
  | .storeImmIndU64 .. => "store_imm_ind_u64"
  | .loadImmJump .. => "load_imm_jump"
  | .branchEqImm .. => "branch_eq_imm"
  | .branchNeImm .. => "branch_ne_imm"
  | .branchLtUImm .. => "branch_lt_u_imm"
  | .branchLeUImm .. => "branch_le_u_imm"
  | .branchGeUImm .. => "branch_ge_u_imm"
  | .branchGtUImm .. => "branch_gt_u_imm"
  | .branchLtSImm .. => "branch_lt_s_imm"
  | .branchLeSImm .. => "branch_le_s_imm"
  | .branchGeSImm .. => "branch_ge_s_imm"
  | .branchGtSImm .. => "branch_gt_s_imm"
  | .moveReg .. => "move_reg"
  | .sbrk .. => "sbrk"
  | .countSetBits64 .. => "count_set_bits_64"
  | .countSetBits32 .. => "count_set_bits_32"
  | .leadingZeroBits64 .. => "leading_zero_bits_64"
  | .leadingZeroBits32 .. => "leading_zero_bits_32"
  | .trailingZeroBits64 .. => "trailing_zero_bits_64"
  | .trailingZeroBits32 .. => "trailing_zero_bits_32"
  | .signExtend8 .. => "sign_extend_8"
  | .signExtend16 .. => "sign_extend_16"
  | .zeroExtend16 .. => "zero_extend_16"
  | .reverseBytes .. => "reverse_bytes"
  | .storeIndU8 .. => "store_ind_u8"
  | .storeIndU16 .. => "store_ind_u16"
  | .storeIndU32 .. => "store_ind_u32"
  | .storeIndU64 .. => "store_ind_u64"
  | .loadIndU8 .. => "load_ind_u8"
  | .loadIndI8 .. => "load_ind_i8"
  | .loadIndU16 .. => "load_ind_u16"
  | .loadIndI16 .. => "load_ind_i16"
  | .loadIndU32 .. => "load_ind_u32"
  | .loadIndI32 .. => "load_ind_i32"
  | .loadIndU64 .. => "load_ind_u64"
  | .addImm32 .. => "add_imm_32"
  | .andImm .. => "and_imm"
  | .xorImm .. => "xor_imm"
  | .orImm .. => "or_imm"
  | .mulImm32 .. => "mul_imm_32"
  | .setLtUImm .. => "set_lt_u_imm"
  | .setLtSImm .. => "set_lt_s_imm"
  | .shloLImm32 .. => "shlo_l_imm_32"
  | .shloRImm32 .. => "shlo_r_imm_32"
  | .sharRImm32 .. => "shar_r_imm_32"
  | .negAddImm32 .. => "neg_add_imm_32"
  | .setGtUImm .. => "set_gt_u_imm"
  | .setGtSImm .. => "set_gt_s_imm"
  | .shloLImmAlt32 .. => "shlo_l_imm_alt_32"
  | .shloRImmAlt32 .. => "shlo_r_imm_alt_32"
  | .sharRImmAlt32 .. => "shar_r_imm_alt_32"
  | .cmovIzImm .. => "cmov_iz_imm"
  | .cmovNzImm .. => "cmov_nz_imm"
  | .addImm64 .. => "add_imm_64"
  | .mulImm64 .. => "mul_imm_64"
  | .shloLImm64 .. => "shlo_l_imm_64"
  | .shloRImm64 .. => "shlo_r_imm_64"
  | .sharRImm64 .. => "shar_r_imm_64"
  | .negAddImm64 .. => "neg_add_imm_64"
  | .shloLImmAlt64 .. => "shlo_l_imm_alt_64"
  | .shloRImmAlt64 .. => "shlo_r_imm_alt_64"
  | .sharRImmAlt64 .. => "shar_r_imm_alt_64"
  | .rotR64Imm .. => "rot_r_64_imm"
  | .rotR64ImmAlt .. => "rot_r_64_imm_alt"
  | .rotR32Imm .. => "rot_r_32_imm"
  | .rotR32ImmAlt .. => "rot_r_32_imm_alt"
  | .branchEq .. => "branch_eq"
  | .branchNe .. => "branch_ne"
  | .branchLtU .. => "branch_lt_u"
  | .branchLtS .. => "branch_lt_s"
  | .branchGeU .. => "branch_ge_u"
  | .branchGeS .. => "branch_ge_s"
  | .loadImmJumpInd .. => "load_imm_jump_ind"
  | .add32 .. => "add_32"
  | .sub32 .. => "sub_32"
  | .mul32 .. => "mul_32"
  | .divU32 .. => "div_u_32"
  | .divS32 .. => "div_s_32"
  | .remU32 .. => "rem_u_32"
  | .remS32 .. => "rem_s_32"
  | .shloL32 .. => "shlo_l_32"
  | .shloR32 .. => "shlo_r_32"
  | .sharR32 .. => "shar_r_32"
  | .add64 .. => "add_64"
  | .sub64 .. => "sub_64"
  | .mul64 .. => "mul_64"
  | .divU64 .. => "div_u_64"
  | .divS64 .. => "div_s_64"
  | .remU64 .. => "rem_u_64"
  | .remS64 .. => "rem_s_64"
  | .shloL64 .. => "shlo_l_64"
  | .shloR64 .. => "shlo_r_64"
  | .sharR64 .. => "shar_r_64"
  | .and .. => "and"
  | .xor .. => "xor"
  | .or .. => "or"
  | .mulUpperSS .. => "mul_upper_s_s"
  | .mulUpperUU .. => "mul_upper_u_u"
  | .mulUpperSU .. => "mul_upper_s_u"
  | .setLtU .. => "set_lt_u"
  | .setLtS .. => "set_lt_s"
  | .cmovIz .. => "cmov_iz"
  | .cmovNz .. => "cmov_nz"
  | .rotL64 .. => "rot_l_64"
  | .rotL32 .. => "rot_l_32"
  | .rotR64 .. => "rot_r_64"
  | .rotR32 .. => "rot_r_32"
  | .andInv .. => "and_inv"
  | .orInv .. => "or_inv"
  | .xnor .. => "xnor"
  | .max .. => "max"
  | .maxU .. => "max_u"
  | .min .. => "min"
  | .minU .. => "min_u"

/-- A register's name (R31). -/
def regName (r : Reg) : String := "r" ++ toString r.val

/-- An immediate, as a signed decimal number (R107). -/
def immText (v : Word) : String := toString v.toInt

/-- A code offset. -/
def targetText (t : Addr) : String := toString t.toNat

/-- A memory operand at an absolute address. -/
def absText (v : Word) : String := "[" ++ immText v ++ "]"

/-- A memory operand at a register plus a displacement. -/
def indText (r : Reg) (v : Word) : String := "[" ++ regName r ++ " + " ++ immText v ++ "]"

/-- How the operands of an instruction are written: as a load, as a store, or in the shape's own order (R107). -/
inductive OperandStyle where
  /-- The destination, then the memory operand. -/
  | loadStyle
  /-- The memory operand, then the value. -/
  | storeStyle
  /-- The shape's order. -/
  | plain
deriving DecidableEq, Repr

/-- The style of an instruction's operands (R107). -/
def Instr.style : Instr → OperandStyle
  | .trap => .plain
  | .fallthrough => .plain
  | .ecalli .. => .plain
  | .loadImm64 .. => .plain
  | .storeImmU8 .. => .storeStyle
  | .storeImmU16 .. => .storeStyle
  | .storeImmU32 .. => .storeStyle
  | .storeImmU64 .. => .storeStyle
  | .jump .. => .plain
  | .jumpInd .. => .plain
  | .loadImm .. => .plain
  | .loadU8 .. => .loadStyle
  | .loadI8 .. => .loadStyle
  | .loadU16 .. => .loadStyle
  | .loadI16 .. => .loadStyle
  | .loadU32 .. => .loadStyle
  | .loadI32 .. => .loadStyle
  | .loadU64 .. => .loadStyle
  | .storeU8 .. => .storeStyle
  | .storeU16 .. => .storeStyle
  | .storeU32 .. => .storeStyle
  | .storeU64 .. => .storeStyle
  | .storeImmIndU8 .. => .storeStyle
  | .storeImmIndU16 .. => .storeStyle
  | .storeImmIndU32 .. => .storeStyle
  | .storeImmIndU64 .. => .storeStyle
  | .loadImmJump .. => .plain
  | .branchEqImm .. => .plain
  | .branchNeImm .. => .plain
  | .branchLtUImm .. => .plain
  | .branchLeUImm .. => .plain
  | .branchGeUImm .. => .plain
  | .branchGtUImm .. => .plain
  | .branchLtSImm .. => .plain
  | .branchLeSImm .. => .plain
  | .branchGeSImm .. => .plain
  | .branchGtSImm .. => .plain
  | .moveReg .. => .plain
  | .sbrk .. => .plain
  | .countSetBits64 .. => .plain
  | .countSetBits32 .. => .plain
  | .leadingZeroBits64 .. => .plain
  | .leadingZeroBits32 .. => .plain
  | .trailingZeroBits64 .. => .plain
  | .trailingZeroBits32 .. => .plain
  | .signExtend8 .. => .plain
  | .signExtend16 .. => .plain
  | .zeroExtend16 .. => .plain
  | .reverseBytes .. => .plain
  | .storeIndU8 .. => .storeStyle
  | .storeIndU16 .. => .storeStyle
  | .storeIndU32 .. => .storeStyle
  | .storeIndU64 .. => .storeStyle
  | .loadIndU8 .. => .loadStyle
  | .loadIndI8 .. => .loadStyle
  | .loadIndU16 .. => .loadStyle
  | .loadIndI16 .. => .loadStyle
  | .loadIndU32 .. => .loadStyle
  | .loadIndI32 .. => .loadStyle
  | .loadIndU64 .. => .loadStyle
  | .addImm32 .. => .plain
  | .andImm .. => .plain
  | .xorImm .. => .plain
  | .orImm .. => .plain
  | .mulImm32 .. => .plain
  | .setLtUImm .. => .plain
  | .setLtSImm .. => .plain
  | .shloLImm32 .. => .plain
  | .shloRImm32 .. => .plain
  | .sharRImm32 .. => .plain
  | .negAddImm32 .. => .plain
  | .setGtUImm .. => .plain
  | .setGtSImm .. => .plain
  | .shloLImmAlt32 .. => .plain
  | .shloRImmAlt32 .. => .plain
  | .sharRImmAlt32 .. => .plain
  | .cmovIzImm .. => .plain
  | .cmovNzImm .. => .plain
  | .addImm64 .. => .plain
  | .mulImm64 .. => .plain
  | .shloLImm64 .. => .plain
  | .shloRImm64 .. => .plain
  | .sharRImm64 .. => .plain
  | .negAddImm64 .. => .plain
  | .shloLImmAlt64 .. => .plain
  | .shloRImmAlt64 .. => .plain
  | .sharRImmAlt64 .. => .plain
  | .rotR64Imm .. => .plain
  | .rotR64ImmAlt .. => .plain
  | .rotR32Imm .. => .plain
  | .rotR32ImmAlt .. => .plain
  | .branchEq .. => .plain
  | .branchNe .. => .plain
  | .branchLtU .. => .plain
  | .branchLtS .. => .plain
  | .branchGeU .. => .plain
  | .branchGeS .. => .plain
  | .loadImmJumpInd .. => .plain
  | .add32 .. => .plain
  | .sub32 .. => .plain
  | .mul32 .. => .plain
  | .divU32 .. => .plain
  | .divS32 .. => .plain
  | .remU32 .. => .plain
  | .remS32 .. => .plain
  | .shloL32 .. => .plain
  | .shloR32 .. => .plain
  | .sharR32 .. => .plain
  | .add64 .. => .plain
  | .sub64 .. => .plain
  | .mul64 .. => .plain
  | .divU64 .. => .plain
  | .divS64 .. => .plain
  | .remU64 .. => .plain
  | .remS64 .. => .plain
  | .shloL64 .. => .plain
  | .shloR64 .. => .plain
  | .sharR64 .. => .plain
  | .and .. => .plain
  | .xor .. => .plain
  | .or .. => .plain
  | .mulUpperSS .. => .plain
  | .mulUpperUU .. => .plain
  | .mulUpperSU .. => .plain
  | .setLtU .. => .plain
  | .setLtS .. => .plain
  | .cmovIz .. => .plain
  | .cmovNz .. => .plain
  | .rotL64 .. => .plain
  | .rotL32 .. => .plain
  | .rotR64 .. => .plain
  | .rotR32 .. => .plain
  | .andInv .. => .plain
  | .orInv .. => .plain
  | .xnor .. => .plain
  | .max .. => .plain
  | .maxU .. => .plain
  | .min .. => .plain
  | .minU .. => .plain

/-- The operands of a record in the order R107 gives for its shape. -/
def Args.operands (style : OperandStyle) : Args → List String
  | .noArgs => []
  | .oneImm immX => [immText immX]
  | .regExtImm rA immX => [regName rA, immText immX]
  | .twoImms immX immY => [absText immX, immText immY]
  | .oneOffset target => [targetText target]
  | .regImm rA immX =>
      match style with
      | .loadStyle => [regName rA, absText immX]
      | .storeStyle => [absText immX, regName rA]
      | .plain => [regName rA, immText immX]
  | .regTwoImms rA immX immY => [indText rA immX, immText immY]
  | .regImmOffset rA immX target => [regName rA, immText immX, targetText target]
  | .twoRegs rD rA => [regName rD, regName rA]
  | .twoRegsImm rA rB immX =>
      match style with
      | .loadStyle => [regName rA, indText rB immX]
      | .storeStyle => [indText rB immX, regName rA]
      | .plain => [regName rA, regName rB, immText immX]
  | .twoRegsOffset rA rB target => [regName rA, regName rB, targetText target]
  | .twoRegsTwoImms rA rB immX immY => [regName rA, regName rB, immText immX, immText immY]
  | .threeRegs rD rA rB => [regName rD, regName rA, regName rB]

/-- An instruction in assembler notation (R107). -/
def Instr.toAssembler (i : Instr) : String :=
  match i.args.operands i.style with
  | [] => i.mnemonic
  | ops => i.mnemonic ++ " " ++ String.intercalate ", " ops

end Sys2Proof
end

