-- ==== Sys2Proof/Machine/Builder.lean ====
section
/-! DEFINITION. The MemoryBuilder: the declarations that make the initial memory, and its hard failures, all before
reset (20_memory.md R72 to R74). -/

namespace Sys2Proof.Machine

/-- The layout gathered so far. -/
structure Builder where
  /-- The declared pages. -/
  pages : List (Nat × Page)
  /-- The initial content. -/
  cells : List Host.Cell
  /-- `finalize` has been called: every further call fails (R73). -/
  finalized : Bool
deriving DecidableEq, Repr

/-- A new builder: nothing declared. -/
def Builder.new : Builder := { pages := [], cells := [], finalized := false }

/-- Writes initial content from address a on. -/
def writeContent (cells : List Host.Cell) (a : Nat) : List Byte → List Host.Cell
  | [] => cells
  | b :: bs => writeContent (writeCell cells a b) (a + 1) bs

/-- Puts a chunk at its place among the chunks of a page. -/
def insertChunk (c : Chunk) (chunks : List Chunk) : List Chunk :=
  chunks.filter (fun d => decide (d.stop ≤ c.start)) ++ c :: chunks.filter (fun d => decide (c.stop ≤ d.start))

/-- Two chunks have a byte in common (R57). -/
def Chunk.overlaps (c d : Chunk) : Bool := decide (c.start < d.stop ∧ d.start < c.stop)

/-- Declares every page of the range whole, as a ReadablePage or a WriteablePage, with content `data` from `start` and
zero beyond (R72). -/
def Builder.declarePages (b : Builder) (p : Page) (start stop : Nat) (data : List Byte) :
    Host.Outcome Builder Fault Refusal :=
  if b.finalized then .fault (.build .builderReused)
  else if pageOffset start ≠ 0 ∨ pageOffset stop ≠ 0 ∨ stop ≤ start ∨ Config.memSize < stop
      ∨ stop - start < data.length then .fault (.build .badRange)
  else if b.pages.any (fun q => decide (pageNumber start ≤ q.1 ∧ q.1 < pageNumber stop)) then
    .fault (.build .pageAlreadyDeclared)
  else
    .next
      { b with
        pages := placePages b.pages p (pageNumber start) (pageNumber stop - pageNumber start)
        cells := writeContent b.cells start data }

/-- `setReadablePages(start, end, data)` (R72). -/
def Builder.setReadablePages (b : Builder) (start stop : Nat) (data : List Byte) :
    Host.Outcome Builder Fault Refusal := b.declarePages .readable start stop data

/-- `setWriteablePages(start, end, data)` (R72). -/
def Builder.setWriteablePages (b : Builder) (start stop : Nat) (data : List Byte) :
    Host.Outcome Builder Fault Refusal := b.declarePages .writeable start stop data

/-- The chunks of a page number as far as declared, or nothing where the page is declared whole (R72). -/
def Builder.chunksAt (b : Builder) (n : Nat) : Option (List Chunk) :=
  match findPage b.pages n with
  | none => some []
  | some (.chunked cs) => some cs
  | some .readable => none
  | some .writeable => none

/-- Declares a chunk inside one page, creating the VirtualPage if the page has none (R72). DESIGN CHOICE: data shorter
than the chunk is accepted, and the rest of the chunk reads 0; the spec says so of whole pages only (log 18). -/
def Builder.declareChunk (b : Builder) (writeable : Bool) (start stop : Nat) (data : List Byte) :
    Host.Outcome Builder Fault Refusal :=
  if b.finalized then .fault (.build .builderReused)
  else if stop ≤ start ∨ Config.memSize < stop ∨ stop - start < data.length then .fault (.build .badRange)
  else if pageNumber start ≠ pageNumber (stop - 1) then .fault (.build .chunkTooLong)
  else
    let c : Chunk := { start := pageOffset start, stop := pageOffset start + (stop - start), writeable := writeable }
    match b.chunksAt (pageNumber start) with
    | none => .fault (.build .pageAlreadyDeclared)
    | some cs =>
        if cs.any (fun d => c.overlaps d) then .fault (.build .chunkOverlap)
        else
          .next
            { b with
              pages := placePages b.pages (.chunked (insertChunk c cs)) (pageNumber start) 1
              cells := writeContent b.cells start data }

/-- `setReadable(start, end, data)` (R72). -/
def Builder.setReadable (b : Builder) (start stop : Nat) (data : List Byte) : Host.Outcome Builder Fault Refusal :=
  b.declareChunk false start stop data

/-- `setWriteable(start, end, data)` (R72). -/
def Builder.setWriteable (b : Builder) (start stop : Nat) (data : List Byte) : Host.Outcome Builder Fault Refusal :=
  b.declareChunk true start stop data

/-- The memory that the layout makes with these heap cursors (R73). -/
def Builder.toMemory (b : Builder) (sbrkIndex endHeapIndex : Nat) : Memory :=
  { pages := b.pages, cells := b.cells, sbrk := sbrkIndex, vsbrk := sbrkIndex, endHeap := endHeapIndex }

/-- `setData(address, data)`: initial bytes into declared pages or chunks, whatever their permission (R72). DESIGN
CHOICE: the address does not wrap; a byte at 2^32 or beyond has no page, so it is `pageMissing` even where page 0 is
declared (log 17). -/
def Builder.setData (b : Builder) (address : Nat) (data : List Byte) : Host.Outcome Builder Fault Refusal :=
  if b.finalized then .fault (.build .builderReused)
  else if (List.range data.length).any
      (fun k => decide ((b.toMemory 0 0).pagePerm (address + k) = .noAccess)) then .fault (.build .pageMissing)
  else .next { b with cells := writeContent b.cells address data }

/-- `finalize(sbrkIndex, endHeapIndex)`: the Memory, and the builder, which takes no further call (R73). -/
def Builder.finalize (b : Builder) (sbrkIndex endHeapIndex : Nat) : Host.Outcome (Memory × Builder) Fault Refusal :=
  if b.finalized then .fault (.build .builderReused)
  else if pageOffset sbrkIndex ≠ 0 ∨ (pageOffset endHeapIndex ≠ 0 ∧ endHeapIndex ≠ Config.memSize)
      ∨ endHeapIndex < sbrkIndex ∨ Config.memSize < endHeapIndex then .fault (.build .badHeapRange)
  else if b.pages.any (fun q => decide (pageNumber sbrkIndex ≤ q.1 ∧ q.1 < pageNumber endHeapIndex)) then
    .fault (.build .heapRangeNotEmpty)
  else .next (b.toMemory sbrkIndex endHeapIndex, { b with finalized := true })

/-- The canonical form of a layout: its content, its page map, and content only where something is declared. -/
abbrev Builder.wf (b : Builder) : Prop :=
  cellsCanonical b.cells ∧ pagesCanonical b.pages ∧ (b.toMemory 0 0).cellsBacked

end Sys2Proof.Machine
end

