-- ==== Sys2Proof/Machine/HostPort.lean ====
section
/-! DEFINITION. The operations the block offers its host, all between two steps (60_exceptions.md R288 to R293), and
reset (70_reset_and_hazards.md R301). -/

namespace Sys2Proof.Machine

/-! ### Running -/

/-- Steps while the status is OK, at most `fuel` of them (R115). -/
def runFor : Nat → State → Host.Outcome State Fault Refusal
  | 0, s => .next s
  | fuel + 1, s =>
      match step s with
      | .next t => if t.status = .ok then runFor fuel t else .next t
      | .fault r => .fault r
      | .refused r => .refused r

/-- `run()`: steps until a status other than OK. A run of GAS + 1 steps has always ended, since every step costs gas
(R115). -/
def run (s : State) : Host.Outcome State Fault Refusal := runFor (s.gas.toNat + 1) s

/-- The numbers a model may use for the statuses; they appear at no interface of the source (R282, D32). -/
def Status.code : Status → Nat
  | .ok => 0
  | .halt => 1
  | .panic => 2
  | .oog => 3
  | .host => 4

/-! ### Program counter and gas -/

/-- `getPC()` (R288). -/
def State.getPC (s : State) : Addr := s.pc

/-- `setNextPC(t)`: taken modulo 2^32 and not validated (R290, D28). -/
def State.setNextPC (s : State) (t : Nat) : State := { s with pc := BitVec.ofNat 32 t }

/-- `getGas()` (R297). -/
def State.getGas (s : State) : Word := s.gas

/-- `add(c)` of the gas counter; an amount past GAS_MAX breaks a duty of the host and is refused (R293, R297, D3). -/
def State.gasAdd (s : State) (c : Word) : Host.Outcome State Fault Refusal :=
  if s.gas.toNat + c.toNat ≤ Config.gasMax then .next { s with gas := s.gas + c } else .refused .gasBeyondMax

/-- `sub(c)` of the gas counter, with its underflow answer (R297). -/
def State.gasTake (s : State) (c : Word) : State × Bool :=
  ({ s with gas := (gasSub s.gas c).1 }, (gasSub s.gas c).2)

/-! ### Registers and memory in a HOST pause or between runs -/

/-- Where the host may access registers and memory: in a HOST pause, or between runs, that is before the first step
after a reset and when a run is over (R293 duty 3; log 8). -/
def State.hostMayAccess (s : State) : Bool :=
  match s.status with
  | .ok => !s.started
  | .halt => true
  | .panic => true
  | .oog => true
  | .host => true

/-- A host access with its answer x: refused while a run is in progress and not paused (R293 duty 3, U9; log 8). -/
def State.hostAccess {α : Type} (s : State) (x : α) : Host.Outcome α Fault Refusal :=
  if s.hostMayAccess then .next x else .refused .hostAccessWhileRunning

/-- The host's `setU64` (R34, R288). -/
def State.hostSetU64 (s : State) (i : Reg) (v : Word) : Host.Outcome State Fault Refusal := s.hostAccess (s.setReg i v)

/-- The host's `setI64`, of a number outside [-2^63, 2^63) too (R34, R288; log 19). -/
def State.hostSetI64 (s : State) (i : Reg) (v : Int) : Host.Outcome State Fault Refusal := s.hostAccess (s.setI64 i v)

/-- The host's `setU32` (R34, R288). -/
def State.hostSetU32 (s : State) (i : Reg) (v : BitVec 32) : Host.Outcome State Fault Refusal :=
  s.hostAccess (s.setU32 i v)

/-- The host's `setI32` (R34, R288). -/
def State.hostSetI32 (s : State) (i : Reg) (v : BitVec 32) : Host.Outcome State Fault Refusal :=
  s.hostAccess (s.setI32 i v)

/-- A host write through the byte window of a register; of a byte k > 7 nothing is written (R35, R288; log 19). -/
def State.hostSetRegByte (s : State) (i : Reg) (k : Nat) (b : Byte) : Host.Outcome State Fault Refusal :=
  s.hostAccess (s.setRegByte i k b)

/-- The host's `loadInto`: the bytes read, and the fault as a value. It changes nothing (R64, R289). -/
def State.hostLoad (s : State) (n : Nat) (a : Addr) : Host.Outcome (List Byte × Option PageFault) Fault Refusal :=
  s.hostAccess (s.mem.loadInto n a)

/-- The host's `storeFrom`: the permission rules are an instruction's, the fault is a value, and STATUS, EXIT_PARAM and
GAS keep theirs (R65, R289). -/
def State.hostStore (s : State) (a : Addr) (bs : List Byte) :
    Host.Outcome (State × Option PageFault) Fault Refusal :=
  s.hostAccess ({ s with mem := (s.mem.storeFrom a bs).1 }, (s.mem.storeFrom a bs).2)

/-- The host's `isWriteable`: it changes nothing (R67, R288). -/
def State.hostIsWriteable (s : State) (a : Addr) (len : Nat) : Host.Outcome Bool Fault Refusal :=
  s.hostAccess (s.mem.isWriteable a len)

/-- `getMemoryPage(n)`: introspection, which is no access and is never refused (R68, R288, R299, D17). -/
def State.getMemoryPage (s : State) (n : Nat) : Option (List Byte) := s.mem.pageDump n

/-- `copyFrom`: the whole map and the cursors are replaced by those of another memory (R75). -/
def State.copyMemoryFrom (s : State) (m : Memory) : Host.Outcome State Fault Refusal := s.hostAccess { s with mem := m }

/-! ### Reset -/

/-- `reset(program, initialPC, initialGas, optionalRegisters, optionalMemory)`, allowed in every status. A mask of
another length than the code, a code of 2^32 bytes or more, and gas past GAS_MAX are refused (R20, R301, R302, D33). The
free-value counter is the model's own and goes on (log 4); no run has begun (log 8). -/
def State.hostReset (s : State) (p : Program) (initialPC initialGas : Nat) (regs : Option (Vector Word 13))
    (mem : Option Memory) : Host.Outcome State Fault Refusal :=
  if p.mask.length ≠ p.code.length then .refused .maskLength
  else if 2 ^ 32 ≤ p.code.length then .refused .codeTooLong
  else if Config.gasMax < initialGas then .refused .gasBeyondMax
  else
    .next
      { regs := regs.getD (Vector.replicate 13 0#64)
        pc := BitVec.ofNat 32 initialPC
        gas := BitVec.ofNat 64 initialGas
        status := .ok
        exitParam := none
        mem := mem.getD Memory.fresh
        prog := p
        blocks := p.basicBlocks
        result := OpResult.empty
        started := false
        freeCount := s.freeCount }

end Sys2Proof.Machine
end

