-- ==== Sys2Proof/Safety.lean ====
section
/-! DEFINITION. The terms claims are stated in: the invariant of a good state, and the frames that say what an
instruction leaves unchanged. -/

namespace Sys2Proof.Machine

/-! ### The invariant -/

/-- A program that reset accepts: one mask bit for each code byte, fewer than 2^32 of them (R20, R302). -/
abbrev programWf (p : Program) : Prop := p.mask.length = p.code.length ∧ p.code.length < 2 ^ 32

/-- EXIT_PARAM agrees with STATUS: an index in HOST, none in OK, HALT and OOG; in PANIC an address or none (R43). -/
abbrev exitParamWf (s : State) : Prop :=
  (s.status = .host → s.exitParam ≠ none) ∧
    (s.status = .ok ∨ s.status = .halt ∨ s.status = .oog → s.exitParam = none)

/-- The result record holds at most one outcome (R112). -/
abbrev resultWf (r : OpResult) : Prop := r.kind = none ∨ r.nextPc = none

/-- A good state: canonical memory, an accepted program, its basic-block set (R49, R119), an exit parameter that fits
the status, one outcome in the record, and STATUS OK where no step has begun since reset (R42; log 8). -/
def State.Inv (s : State) : Prop :=
  s.mem.wf ∧ programWf s.prog ∧ s.blocks = s.prog.basicBlocks ∧ exitParamWf s ∧ resultWf s.result ∧
    (s.started = false → s.status = .ok)

/-! ### Frames -/

/-- The data memory is the same: as data, and as every read of one byte sees it. -/
def SameMemory (s t : State) : Prop := t.mem = s.mem ∧ ∀ a : Addr, t.mem.readByte a = s.mem.readByte a

/-- pc, GAS, STATUS and EXIT_PARAM, which no operation writes (R117), and the model's own `started` (log 8). -/
def SameDriver (s t : State) : Prop :=
  t.pc = s.pc ∧ t.gas = s.gas ∧ t.status = s.status ∧ t.exitParam = s.exitParam ∧ t.started = s.started

/-- The program image and the basic-block set, which no instruction writes (R48, R49, R81). -/
def SameProgram (s t : State) : Prop := t.prog = s.prog ∧ t.blocks = s.blocks

/-- Every register is the same. -/
def SameRegs (s t : State) : Prop := ∀ q : Reg, t.reg q = s.reg q

/-- Every register but r is the same. -/
def SameRegsBut (s t : State) (r : Reg) : Prop := ∀ q : Reg, q ≠ r → t.reg q = s.reg q

/-- Everything but the registers is the same, the result record too. The clause about `freeCount` here and below is about
the model's own counter (log 4): no free value is drawn, or, on a faulting load, one is. -/
def SameButRegs (s t : State) : Prop :=
  SameMemory s t ∧ SameDriver s t ∧ SameProgram s t ∧ t.result = s.result ∧ t.freeCount = s.freeCount

/-- Everything but the result record is the same. -/
def SameButResult (s t : State) : Prop :=
  SameRegs s t ∧ SameMemory s t ∧ SameDriver s t ∧ SameProgram s t ∧ t.freeCount = s.freeCount

/-- exec completes with register r holding a value of which P holds, and nothing else changed. -/
def Writes (i : Instr) (s : State) (r : Reg) (P : Word → Prop) : Prop :=
  ∃ t, exec i s = .next t ∧ P (t.reg r) ∧ SameRegsBut s t r ∧ SameButRegs s t

/-- exec completes with this result record, and nothing else changed. -/
def Records (i : Instr) (s : State) (r : OpResult) : Prop :=
  ∃ t, exec i s = .next t ∧ t.result = r ∧ SameButResult s t

/-- exec completes with nothing changed. -/
def ChangesNothing (i : Instr) (s : State) : Prop := exec i s = .next s

/-! ### Memory spans -/

/-- Byte k of an access at a (R53). -/
def byteAddr (a : Addr) (k : Nat) : Addr := a + BitVec.ofNat 32 k

/-- Every one of the n bytes from a on can be read (R77). -/
def Readable (m : Memory) (a : Addr) (n : Nat) : Prop := ∀ k, k < n → m.perm (byteAddr a k).toNat ≠ .noAccess

/-- Every one of the n bytes from a on can be written (R77). -/
def Writeable (m : Memory) (a : Addr) (n : Nat) : Prop := ∀ k, k < n → m.perm (byteAddr a k).toNat = .readWrite

/-- Byte k is the first of the n bytes that cannot be read (R64). -/
def FirstUnreadable (m : Memory) (a : Addr) (n k : Nat) : Prop :=
  k < n ∧ Readable m a k ∧ m.perm (byteAddr a k).toNat = .noAccess

/-- Byte k is the first of the n bytes that cannot be written (R65). -/
def FirstUnwriteable (m : Memory) (a : Addr) (n k : Nat) : Prop :=
  k < n ∧ Writeable m a k ∧ m.perm (byteAddr a k).toNat ≠ .readWrite

/-- The little-endian value of the n content bytes from a on (R60). -/
def spanValue (m : Memory) (a : Addr) (n : Nat) : Nat :=
  ((List.range n).map (fun k => (m.val (byteAddr a k).toNat).toNat * 256 ^ k)).sum

/-- The page map, the permissions and the heap cursors are the same: a store changes content only (R77). -/
def SameLayout (s t : State) : Prop :=
  t.mem.pages = s.mem.pages ∧ t.mem.sbrk = s.mem.sbrk ∧ t.mem.vsbrk = s.mem.vsbrk ∧ t.mem.endHeap = s.mem.endHeap ∧
    ∀ a : Nat, t.mem.perm a = s.mem.perm a

/-- The first n bytes from a on hold the low n bytes of v, little-endian (R60), and every other byte reads as
before. -/
def Stored (s t : State) (a : Addr) (n : Nat) (v : Word) : Prop :=
  (∀ k, k < n → t.mem.readByte (byteAddr a k) = some (BitVec.ofNat 8 (v.toNat / 256 ^ k))) ∧
    ∀ b : Addr, (∀ k, k < n → b ≠ byteAddr a k) → t.mem.readByte b = s.mem.readByte b

/-- exec completes having stored the low n bytes of v at a, and nothing else changed. -/
def Stores (i : Instr) (s : State) (a : Addr) (n : Nat) (v : Word) : Prop :=
  ∃ t, exec i s = .next t ∧ Stored s t a n v ∧ SameLayout s t ∧ SameRegs s t ∧ SameDriver s t ∧ SameProgram s t ∧
    t.result = s.result ∧ t.freeCount = s.freeCount

/-- How many of n bytes from a on lie in the page of a: the first segment of a store (R65). -/
def bytesOnFirstPage (a : Addr) (n : Nat) : Nat := min n (2 ^ 14 - a.toNat % 2 ^ 14)

/-- What a FAULT at this address leaves in the result record (R112, R218, R219). -/
def faultRecord (f : Addr) : OpResult := { kind := some (.fault f), nextPc := none }

/-- exec completes as a load of n bytes at a into rA: where all of them can be read, rA gets a value of which P holds
together with the loaded number; else FAULT at the first that cannot be read, with memory and the other registers as
before, and rA any value (R217, R218). -/
def Loads (i : Instr) (s : State) (rA : Reg) (a : Addr) (n : Nat) (P : Nat → Word → Prop) : Prop :=
  (Readable s.mem a n → Writes i s rA (P (spanValue s.mem a n))) ∧
    ∀ k, FirstUnreadable s.mem a n k →
      ∃ t, exec i s = .next t ∧ t.result = faultRecord (byteAddr a k) ∧ SameRegsBut s t rA ∧ SameMemory s t ∧
        SameDriver s t ∧ SameProgram s t ∧ t.freeCount = s.freeCount + 1

/-- exec completes as a store of the low n bytes of v at a: where all of them can be written, they are; else FAULT at
the first that cannot, with the bytes on the first page stored if the fault lies beyond them, and nothing otherwise
(R217, R219, R65). -/
def StoresOrFaults (i : Instr) (s : State) (a : Addr) (n : Nat) (v : Word) : Prop :=
  (Writeable s.mem a n → Stores i s a n v) ∧
    ∀ k, FirstUnwriteable s.mem a n k →
      ∃ t, exec i s = .next t ∧ t.result = faultRecord (byteAddr a k) ∧
        Stored s t a (if k < bytesOnFirstPage a n then 0 else bytesOnFirstPage a n) v ∧ SameLayout s t ∧
        SameRegs s t ∧ SameDriver s t ∧ SameProgram s t ∧ t.freeCount = s.freeCount

/-- The list holds the n bytes that can be read from a on, in order (R64). -/
def BytesRead (s : State) (a : Addr) (n : Nat) (bytes : List Byte) : Prop :=
  bytes.length = n ∧ ∀ k, k < n → bytes[k]? = s.mem.readByte (byteAddr a k)

/-- The bytes bs are stored from a on, the last of them where the span meets an address twice, and every byte outside
the span reads as before (R60, R65). -/
def BytesStored (s t : State) (a : Addr) (bs : List Byte) : Prop :=
  (∀ k, k < bs.length → (∀ j, k < j → j < bs.length → byteAddr a j ≠ byteAddr a k) →
      t.mem.readByte (byteAddr a k) = bs[k]?) ∧
    ∀ b : Addr, (∀ k, k < bs.length → b ≠ byteAddr a k) → t.mem.readByte b = s.mem.readByte b

/-- How many bytes of a store at a lie before the page of its byte k: the segments before the one k is in (R65). -/
def bytesBeforePage (a : Addr) (k : Nat) : Nat := k - min k ((a.toNat + k) % 2 ^ 14)

/-! ### The builder -/

/-- c has the content of b with data written from address a on. -/
def ContentWritten (b c : Builder) (a : Nat) (data : List Byte) : Prop :=
  (∀ k, k < data.length → some (readCell c.cells (a + k)) = data[k]?) ∧
    ∀ x, x < a ∨ a + data.length ≤ x → readCell c.cells x = readCell b.cells x

/-- c is b with every page of [start, stop) declared whole as p, with data from start on and zero beyond (R72). -/
def PagesDeclared (b c : Builder) (p : Page) (start stop : Nat) (data : List Byte) : Prop :=
  (∀ n, findPage c.pages n = if start / 2 ^ 14 ≤ n ∧ n < stop / 2 ^ 14 then some p else findPage b.pages n) ∧
    ContentWritten b c start data ∧ ∀ x, start + data.length ≤ x → x < stop → readCell c.cells x = 0#8

/-- c is b with the bytes of [start, stop) declared a chunk of a VirtualPage, with permission q and data from start on
(R72). -/
def ChunkDeclared (b c : Builder) (q : Perm) (start stop : Nat) (data : List Byte) : Prop :=
  (∃ chunks, findPage c.pages (start / 2 ^ 14) = some (.chunked chunks)) ∧
    (∀ n, n ≠ start / 2 ^ 14 → findPage c.pages n = findPage b.pages n) ∧
    (∀ x, (c.toMemory 0 0).pagePerm x = if start ≤ x ∧ x < stop then q else (b.toMemory 0 0).pagePerm x) ∧
    ContentWritten b c start data

/-- Every call on the builder fails, because it has been finalized (R73). -/
def RefusesEveryCall (b : Builder) : Prop :=
  ∀ (start stop : Nat) (data : List Byte),
    b.setReadablePages start stop data = .fault (.build .builderReused) ∧
      b.setWriteablePages start stop data = .fault (.build .builderReused) ∧
      b.setReadable start stop data = .fault (.build .builderReused) ∧
      b.setWriteable start stop data = .fault (.build .builderReused) ∧
      b.setData start data = .fault (.build .builderReused) ∧
      b.finalize start stop = .fault (.build .builderReused)

/-! ### Control transfer -/

/-- A record that holds PANIC. -/
def panicRecord : OpResult := { kind := some .panic, nextPc := none }

/-- A record that holds HALT. -/
def haltRecord : OpResult := { kind := some .halt, nextPc := none }

/-- A record that holds a validated target. -/
def jumpRecord (t : Addr) : OpResult := { kind := none, nextPc := some t }

/-- exec completes as a branch: nothing where the condition is false, the target where it is true and the target is a
block start, PANIC otherwise (R251). -/
def BranchesIf (i : Instr) (s : State) (target : Addr) (cond : Prop) : Prop :=
  (¬ cond → ChangesNothing i s) ∧ (cond → target.toNat ∈ s.blocks → Records i s (jumpRecord target)) ∧
    (cond → target.toNat ∉ s.blocks → Records i s panicRecord)

/-- The record r is what a dynamic jump to address a leaves: the halt sentinel first, then zero and odd addresses, then
the range of the jump table, then the entry (R252). -/
def DynamicJumpRecord (s : State) (a : Addr) (r : OpResult) : Prop :=
  (a.toNat = 0xFFFF0000 → r = haltRecord) ∧
    (a.toNat ≠ 0xFFFF0000 → (a.toNat = 0 ∨ a.toNat % 2 = 1) → r = panicRecord) ∧
    (a.toNat ≠ 0xFFFF0000 → a.toNat ≠ 0 → a.toNat % 2 = 0 →
      (s.prog.jumpTable.length ≤ a.toNat / 2 - 1 → r = panicRecord) ∧
        (∀ h : a.toNat / 2 - 1 < s.prog.jumpTable.length,
          (s.prog.jumpTable[a.toNat / 2 - 1].toNat ∈ s.blocks → r = jumpRecord s.prog.jumpTable[a.toNat / 2 - 1]) ∧
            (s.prog.jumpTable[a.toNat / 2 - 1].toNat ∉ s.blocks → r = panicRecord)))

/-! ### Steps -/

/-- STATUS is OK or HOST: a step may start (R109). -/
def Runnable (s : State) : Prop := s.status = .ok ∨ s.status = .host

/-- t is s with this pc, STATUS, EXIT_PARAM and GAS; registers, memory and program are the same (R113). -/
def CommitsTo (s t : State) (pc : Addr) (status : Status) (exitParam : Option (BitVec 32)) (gas : Word) : Prop :=
  t.pc = pc ∧ t.status = status ∧ t.exitParam = exitParam ∧ t.gas = gas ∧ SameRegs s t ∧ SameMemory s t ∧
    SameProgram s t

/-- The step from s has executed a trap: PANIC, one gas unit charged, and nothing else (R254). -/
def PanicsInPlace (s t : State) : Prop :=
  t.status = .panic ∧ t.exitParam = none ∧ t.pc = s.pc ∧ t.gas.toNat + 1 = s.gas.toNat ∧ SameRegs s t ∧
    SameMemory s t ∧ SameProgram s t

/-! ### Encoding -/

/-- The 117 unassigned opcode bytes (R104). -/
def unassignedOpcode (op : Nat) : Bool :=
  (2 ≤ op && op ≤ 9) || (11 ≤ op && op ≤ 19) || (21 ≤ op && op ≤ 29) || (34 ≤ op && op ≤ 39) ||
    (41 ≤ op && op ≤ 49) || (63 ≤ op && op ≤ 69) || (74 ≤ op && op ≤ 79) || (91 ≤ op && op ≤ 99) ||
    (112 ≤ op && op ≤ 119) || (162 ≤ op && op ≤ 169) || (176 ≤ op && op ≤ 179) || (181 ≤ op && op ≤ 189) ||
    (231 ≤ op && op ≤ 255)

/-- The 22 opcodes that end a basic block (R118). -/
def terminatorOpcodes : List Nat :=
  [0, 1, 40, 50, 80, 81, 82, 83, 84, 85, 86, 87, 88, 89, 90, 170, 171, 172, 173, 174, 175, 180]

/-- The unsigned number that l bytes from position p on spell, least significant first (R87). -/
def fieldSum (c : Nat → Byte) (p l : Nat) : Nat := ((List.range l).map (fun k => (c (p + k)).toNat * 256 ^ k)).sum

/-- The signed number that an l-byte field at position p spells: two's complement in 8l bits, 0 for no bytes (R87). -/
def fieldSigned (c : Nat → Byte) (p l : Nat) : Int := Int.bmod (fieldSum c p l) (256 ^ l)

/-- v is the immediate in the l-byte field at position p (R87). -/
def IsImmediate (c : Nat → Byte) (p l : Nat) (v : Word) : Prop := v.toInt = fieldSigned c p l

/-- t is the target of the branch offset in the l-byte field at position p (R88). -/
def IsTarget (pc : Addr) (c : Nat → Byte) (p l : Nat) (t : Addr) : Prop :=
  (t.toNat : Int) = ((pc.toNat : Int) + fieldSigned c p l) % 2 ^ 32

/-- r is the register that a field selects: at most 12 (R86). -/
def IsRegister (field : Nat) (r : Reg) : Prop := r.val = min 12 field

end Sys2Proof.Machine
end

