-- ==== Sys2Proof/Certificates/Slice0/Obligations.lean ====
section
/-! DEFINITION. The statements for the provers. Each docstring says what it states; the rules of spec/ it rests on stand
in OBLIGATIONS.json. The predicates stand in Safety.lean. -/

open Sys2Proof Sys2Proof.Machine


/-- O1. Decoding inverts encoding, for every instruction and every field length. For every program, place, instruction
and field lengths of at most 4 bytes that can hold its immediates: where the bytes that encodeWith writes stand at the
place and the mask makes them one instruction, the decoder reads that instruction and its argument-byte count. Rests
on 30_encoding.md sections 2 to 4, R84, R86, R87, R88, R102. -/
def Obligations.DecodeInvertsEncode : Prop :=
  ∀ (p : Program) (pc : Addr) (lX lY : Nat) (i : Instr), lX ≤ 4 → lY ≤ 4 → i.args.fits lX lY pc = true →
    p.Holds pc (encodeWith lX lY pc i) → decode p pc = (i, (encodeWith lX lY pc i).length - 1)

/-- O2. Every well-formed instruction, encoded as a program of its own, decodes to itself. For every well-formed
instruction i: encode gives at most 25 bytes, and the program whose code is those bytes with one mask bit at offset 0
decodes at offset 0 to i with all the remaining bytes as its arguments. Rests on 30_encoding.md sections 2 to 4, R13,
R14, R82, R83, R84. -/
def Obligations.WellFormedInstructionsAssemble : Prop :=
  ∀ (i : Instr) (jumpTable : List Addr), i.wellFormed = true →
    let bs := encode 0#32 i
    bs.length ≤ 25 ∧
      decode { code := bs, mask := true :: List.replicate (bs.length - 1) false, jumpTable := jumpTable } 0#32 =
        (i, bs.length - 1)

/-- O3. Every byte string decodes to a well-formed instruction of at most 25 bytes. For every program image and every
pc, the decoder answers an instruction each of whose variable-length immediates is the sign-extension of at most four
bytes, with at most 24 argument bytes. Rests on R13, R14, R82, R87, R102, R105. -/
def Obligations.DecodedInstructionsAreWellFormed : Prop :=
  ∀ (p : Program) (pc : Addr), (decode p pc).1.wellFormed = true ∧ (decode p pc).2 ≤ 24

/-- O4. The argument-byte count is the distance to the next mask bit, at most 24. For a program with one mask bit for
each code byte: the argument-byte count is at most 24, every mask bit it passes over is 0, and where it is below 24
the mask bit after it is 1 or lies past the end of code. Formalises R84. -/
def Obligations.InstructionLengthFromMask : Prop :=
  ∀ (p : Program) (pc : Addr), p.mask.length = p.code.length →
    let n := pc.toNat
    let l := (decode p pc).2
    l ≤ 24 ∧ (∀ j, j < l → p.mask[n + 1 + j]? = some false) ∧
      (l < 24 → p.mask[n + 1 + l]? = some true ∨ p.code.length ≤ n + 1 + l)

/-- O5. Unassigned opcodes and fetches past the end of code act as trap. There are 117 unassigned opcode bytes; each
decodes with the shape of no arguments to a trap. A step in OK or HOST with gas, at an unassigned opcode or at or past
the end of code, charges one gas unit and ends in PANIC with pc, registers, memory and program unchanged. Formalises
R104, R110. -/
def Obligations.UnassignedOpcodesAndFetchPastEndPanic : Prop :=
  ((List.range 256).countP unassignedOpcode = 117) ∧
    (∀ op, unassignedOpcode op = true → opcodeMap op = .noArgs Instr.trap) ∧
    ∀ s : State, Runnable s → 1 ≤ s.gas.toNat →
      (unassignedOpcode (s.prog.codeByte s.pc.toNat).toNat = true ∨ s.prog.code.length ≤ s.pc.toNat) →
        ∃ t, step s = .next t ∧ PanicsInPlace s t

/-- O6. Instruction bytes that the spec writes out decode to the instructions it writes them for. Twelve of the spec's
example encodings, at least one of each family of the opcode table, read by the decoder as the instruction and the
argument-byte count the example gives. Rests on R126, R146, R200, R214, R215, R235, R256, R258, R259, R278, R212,
R254. -/
def Obligations.SpecWordsDecode : Prop :=
  (decode { code := [0x83, 0x13, 0x01], mask := [true, false, false], jumpTable := [] } 0#32 = (.addImm32 3 1 1#64, 2)) ∧
    (decode { code := [0xD5, 0x21, 0x03], mask := [true, false, false], jumpTable := [] } 0#32 = (.mulUpperSS 3 1 2, 2)) ∧
    (decode { code := [0x6F, 0x13], mask := [true, false], jumpTable := [] } 0#32 = (.reverseBytes 3 1, 1)) ∧
    (decode { code := [0x33, 0x03, 0xFF], mask := [true, false, false], jumpTable := [] } 0#32 = (.loadImm 3 0xFFFFFFFFFFFFFFFF#64, 2)) ∧
    (decode { code := [0x14, 0x03, 0xEF, 0xCD, 0xAB, 0x89, 0x67, 0x45, 0x23, 0x01], mask := [true, false, false, false, false, false, false, false, false, false], jumpTable := [] } 0#32 = (.loadImm64 3 0x123456789ABCDEF#64, 9)) ∧
    (decode { code := [0x3B, 0x01, 0x00, 0x00, 0x01], mask := [true, false, false, false, false], jumpTable := [] } 0#32 = (.storeU8 1 0x10000#64, 4)) ∧
    (decode { code := [0x28, 0x02], mask := [true, false], jumpTable := [] } 0#32 = (.jump 2#32, 1)) ∧
    (decode { code := [0x50, 0x13, 0x2A, 0x04], mask := [true, false, false, false], jumpTable := [] } 0#32 = (.loadImmJump 3 42#64 4#32, 3)) ∧
    (decode { code := [0xB4, 0x13, 0x01, 0x2A], mask := [true, false, false, false], jumpTable := [] } 0#32 = (.loadImmJumpInd 3 1 42#64 0#64, 3)) ∧
    (decode { code := [0x0A, 0x05], mask := [true, false], jumpTable := [] } 0#32 = (.ecalli 5#64, 1)) ∧
    (decode { code := [0xDA, 0x21, 0x03], mask := [true, false, false], jumpTable := [] } 0#32 = (.cmovIz 3 1 2, 2)) ∧
    (decode { code := [0x00], mask := [true], jumpTable := [] } 0#32 = (.trap, 0))

/-- O7. NO_ARGUMENTS, TWO_REGISTERS and THREE_REGISTERS: which opcodes use them and how their fields are read. The
opcodes of the three shapes without immediates, and for each the register fields: a nibble of byte 1, or all of byte 2
for rD of THREE_REGISTERS, at most 12. Formalises R86, R89, R97, R101. -/
def Obligations.RegisterShapesDecode : Prop :=
  (∀ op, op < 256 → ((opcodeMap op).shape = .twoRegs ↔ 100 ≤ op ∧ op ≤ 111) ∧
      ((opcodeMap op).shape = .threeRegs ↔ 190 ≤ op ∧ op ≤ 230) ∧
      ((opcodeMap op).shape = .noArgs ↔ op = 0 ∨ op = 1 ∨ unassignedOpcode op = true)) ∧
    ∀ (p : Program) (pc : Addr),
      let c := fun k => p.codeByte (pc.toNat + k)
      let l := p.skip pc.toNat
      (∀ mk, opcodeMap (c 0).toNat = .noArgs mk → decode p pc = (mk, l)) ∧
        (∀ mk, opcodeMap (c 0).toNat = .twoRegs mk →
          ∃ rD rA, decode p pc = (mk rD rA, l) ∧ IsRegister ((c 1).toNat % 16) rD ∧
            IsRegister ((c 1).toNat / 16) rA) ∧
        (∀ mk, opcodeMap (c 0).toNat = .threeRegs mk →
          ∃ rD rA rB, decode p pc = (mk rD rA rB, l) ∧ IsRegister ((c 1).toNat % 16) rA ∧
            IsRegister ((c 1).toNat / 16) rB ∧ IsRegister (c 2).toNat rD)

/-- O8. The shapes with one immediate: which opcodes use them and how their fields are read. The opcodes of
ONE_IMMEDIATE, ONE_REGISTER_ONE_EXTENDED_WIDTH_IMMEDIATE, ONE_REGISTER_ONE_IMMEDIATE and TWO_REGISTERS_ONE_IMMEDIATE,
and for each the place, the length and the value of its fields: little-endian, sign-extended, except the 8-byte
immediate. Formalises R87, R90, R91, R94, R98. -/
def Obligations.ImmediateShapesDecode : Prop :=
  (∀ op, op < 256 → ((opcodeMap op).shape = .oneImm ↔ op = 10) ∧ ((opcodeMap op).shape = .regExtImm ↔ op = 20) ∧
      ((opcodeMap op).shape = .regImm ↔ 50 ≤ op ∧ op ≤ 62) ∧
      ((opcodeMap op).shape = .twoRegsImm ↔ 120 ≤ op ∧ op ≤ 161)) ∧
    ∀ (p : Program) (pc : Addr),
      let c := fun k => p.codeByte (pc.toNat + k)
      let l := p.skip pc.toNat
      (∀ mk, opcodeMap (c 0).toNat = .oneImm mk →
          ∃ immX, decode p pc = (mk immX, l) ∧ IsImmediate c 1 (min 4 l) immX) ∧
        (∀ mk, opcodeMap (c 0).toNat = .regExtImm mk →
          ∃ rA immX, decode p pc = (mk rA immX, l) ∧ IsRegister ((c 1).toNat % 16) rA ∧
            immX.toNat = fieldSum c 2 8) ∧
        (∀ mk, opcodeMap (c 0).toNat = .regImm mk →
          ∃ rA immX, decode p pc = (mk rA immX, l) ∧ IsRegister ((c 1).toNat % 16) rA ∧
            IsImmediate c 2 (min 4 (l - 1)) immX) ∧
        (∀ mk, opcodeMap (c 0).toNat = .twoRegsImm mk →
          ∃ rA rB immX, decode p pc = (mk rA rB immX, l) ∧ IsRegister ((c 1).toNat % 16) rA ∧
            IsRegister ((c 1).toNat / 16) rB ∧ IsImmediate c 2 (min 4 (l - 1)) immX)

/-- O9. The shapes with two immediates: which opcodes use them and how their fields are read. The opcodes of
TWO_IMMEDIATES, ONE_REGISTER_TWO_IMMEDIATES and TWO_REGISTERS_TWO_IMMEDIATES, and for each the length field, and the
place, length and sign-extended value of both immediates. Formalises R92, R95, R100. -/
def Obligations.TwoImmediateShapesDecode : Prop :=
  (∀ op, op < 256 → ((opcodeMap op).shape = .twoImms ↔ 30 ≤ op ∧ op ≤ 33) ∧
      ((opcodeMap op).shape = .regTwoImms ↔ 70 ≤ op ∧ op ≤ 73) ∧
      ((opcodeMap op).shape = .twoRegsTwoImms ↔ op = 180)) ∧
    ∀ (p : Program) (pc : Addr),
      let c := fun k => p.codeByte (pc.toNat + k)
      let l := p.skip pc.toNat
      (∀ mk, opcodeMap (c 0).toNat = .twoImms mk →
          let lX := min 4 ((c 1).toNat % 8)
          ∃ immX immY, decode p pc = (mk immX immY, l) ∧ IsImmediate c 2 lX immX ∧
            IsImmediate c (2 + lX) (min 4 (l - lX - 1)) immY) ∧
        (∀ mk, opcodeMap (c 0).toNat = .regTwoImms mk →
          let lX := min 4 ((c 1).toNat / 16 % 8)
          ∃ rA immX immY, decode p pc = (mk rA immX immY, l) ∧ IsRegister ((c 1).toNat % 16) rA ∧
            IsImmediate c 2 lX immX ∧ IsImmediate c (2 + lX) (min 4 (l - lX - 1)) immY) ∧
        (∀ mk, opcodeMap (c 0).toNat = .twoRegsTwoImms mk →
          let lX := min 4 ((c 2).toNat % 8)
          ∃ rA rB immX immY, decode p pc = (mk rA rB immX immY, l) ∧ IsRegister ((c 1).toNat % 16) rA ∧
            IsRegister ((c 1).toNat / 16) rB ∧ IsImmediate c 3 lX immX ∧
            IsImmediate c (3 + lX) (min 4 (l - lX - 2)) immY)

/-- O10. The shapes with a branch offset: which opcodes use them and how their targets are computed. The opcodes of
ONE_OFFSET, ONE_REGISTER_ONE_IMMEDIATE_ONE_OFFSET and TWO_REGISTERS_ONE_OFFSET; the target is pc plus the signed
little-endian offset, modulo 2^32. Formalises R88, R93, R96, R99. -/
def Obligations.OffsetShapesDecode : Prop :=
  (∀ op, op < 256 → ((opcodeMap op).shape = .oneOffset ↔ op = 40) ∧
      ((opcodeMap op).shape = .regImmOffset ↔ 80 ≤ op ∧ op ≤ 90) ∧
      ((opcodeMap op).shape = .twoRegsOffset ↔ 170 ≤ op ∧ op ≤ 175)) ∧
    ∀ (p : Program) (pc : Addr),
      let c := fun k => p.codeByte (pc.toNat + k)
      let l := p.skip pc.toNat
      (∀ mk, opcodeMap (c 0).toNat = .oneOffset mk →
          ∃ target, decode p pc = (mk target, l) ∧ IsTarget pc c 1 (min 4 l) target) ∧
        (∀ mk, opcodeMap (c 0).toNat = .regImmOffset mk →
          let lX := min 4 ((c 1).toNat / 16 % 8)
          ∃ rA immX target, decode p pc = (mk rA immX target, l) ∧ IsRegister ((c 1).toNat % 16) rA ∧
            IsImmediate c 2 lX immX ∧ IsTarget pc c (2 + lX) (min 4 (l - lX - 1)) target) ∧
        (∀ mk, opcodeMap (c 0).toNat = .twoRegsOffset mk →
          ∃ rA rB target, decode p pc = (mk rA rB target, l) ∧ IsRegister ((c 1).toNat % 16) rA ∧
            IsRegister ((c 1).toNat / 16) rB ∧ IsTarget pc c 2 (min 4 (l - 1)) target)

/-- O11. The basic-block set: offset 0 and what follows a terminator, at instruction starts inside the code. For an
accepted program, k is a basic-block start exactly when k is 0 or follows an instruction start whose opcode is one of
the 22 terminators, and k is an instruction start inside the code. Formalises R118, R119. -/
def Obligations.BasicBlockStarts : Prop :=
  ∀ p : Program, programWf p → ∀ k : Nat,
    k ∈ p.basicBlocks ↔
      (k = 0 ∨ ∃ n b, p.code[n]? = some b ∧ p.mask[n]? = some true ∧ b.toNat ∈ terminatorOpcodes ∧
          k = n + 1 + p.skip n) ∧
        k < p.code.length ∧ p.mask[k]? = some true

/-- O12. The 32-bit additions, subtractions and multiplications, immediate and register forms. Each completes for
every state and operands: the destination, read as signed, is the exact result reduced to a signed 32-bit number,
computed from the old register values; every other register, memory, the driver state and the result record are
unchanged. The opcode bytes and shapes are those of the rules. Formalises R126, R127, R128, R132, R133, R134. -/
def Obligations.AddSubMul32Results : Prop :=
  (opcodeMap 131 = .twoRegsImm Instr.addImm32 ∧
    opcodeMap 135 = .twoRegsImm Instr.mulImm32 ∧
    opcodeMap 141 = .twoRegsImm Instr.negAddImm32 ∧
    opcodeMap 190 = .threeRegs Instr.add32 ∧
    opcodeMap 191 = .threeRegs Instr.sub32 ∧
    opcodeMap 192 = .threeRegs Instr.mul32) ∧
    ∀ (s : State) (rD rA rB : Reg) (immX : Word),
      Writes (.addImm32 rA rB immX) s rA (fun v =>
        v.toInt = Int.bmod ((s.reg rB).toInt + immX.toInt) (2 ^ 32)) ∧
      Writes (.mulImm32 rA rB immX) s rA (fun v =>
        v.toInt = Int.bmod ((s.reg rB).toInt * immX.toInt) (2 ^ 32)) ∧
      Writes (.negAddImm32 rA rB immX) s rA (fun v =>
        v.toInt = Int.bmod (immX.toInt - (s.reg rB).toInt) (2 ^ 32)) ∧
      Writes (.add32 rD rA rB) s rD (fun v =>
        v.toInt = Int.bmod ((s.reg rA).toInt + (s.reg rB).toInt) (2 ^ 32)) ∧
      Writes (.sub32 rD rA rB) s rD (fun v =>
        v.toInt = Int.bmod ((s.reg rA).toInt - (s.reg rB).toInt) (2 ^ 32)) ∧
      Writes (.mul32 rD rA rB) s rD (fun v =>
        v.toInt = Int.bmod ((s.reg rA).toInt * (s.reg rB).toInt) (2 ^ 32))

/-- O13. The 64-bit additions, subtractions and multiplications, immediate and register forms. Each completes for
every state and operands: the destination is the exact result modulo 2^64, computed from the old register values;
nothing else changes. The opcode bytes and shapes are those of the rules. Formalises R129, R130, R131, R139, R140,
R141. -/
def Obligations.AddSubMul64Results : Prop :=
  (opcodeMap 149 = .twoRegsImm Instr.addImm64 ∧
    opcodeMap 150 = .twoRegsImm Instr.mulImm64 ∧
    opcodeMap 154 = .twoRegsImm Instr.negAddImm64 ∧
    opcodeMap 200 = .threeRegs Instr.add64 ∧
    opcodeMap 201 = .threeRegs Instr.sub64 ∧
    opcodeMap 202 = .threeRegs Instr.mul64) ∧
    ∀ (s : State) (rD rA rB : Reg) (immX : Word),
      Writes (.addImm64 rA rB immX) s rA (fun v =>
        v.toNat = ((s.reg rB).toNat + immX.toNat) % 2 ^ 64) ∧
      Writes (.mulImm64 rA rB immX) s rA (fun v =>
        v.toNat = ((s.reg rB).toNat * immX.toNat) % 2 ^ 64) ∧
      Writes (.negAddImm64 rA rB immX) s rA (fun v =>
        (v.toNat : Int) = ((immX.toNat : Int) - (s.reg rB).toNat) % 2 ^ 64) ∧
      Writes (.add64 rD rA rB) s rD (fun v =>
        v.toNat = ((s.reg rA).toNat + (s.reg rB).toNat) % 2 ^ 64) ∧
      Writes (.sub64 rD rA rB) s rD (fun v =>
        (v.toNat : Int) = (((s.reg rA).toNat : Int) - (s.reg rB).toNat) % 2 ^ 64) ∧
      Writes (.mul64 rD rA rB) s rD (fun v =>
        v.toNat = ((s.reg rA).toNat * (s.reg rB).toNat) % 2 ^ 64)

/-- O14. The 32-bit divisions and remainders, with division by zero and signed overflow. Each completes for every
state and registers, by zero and on signed overflow too; the quotient truncates toward zero, a division by zero gives
2^64 - 1, a remainder by zero gives the dividend, the overflow gives the dividend and the remainder 0; nothing but the
destination changes. Formalises R135, R136, R137, R138. -/
def Obligations.DivRem32Results : Prop :=
  (opcodeMap 193 = .threeRegs Instr.divU32 ∧
    opcodeMap 194 = .threeRegs Instr.divS32 ∧
    opcodeMap 195 = .threeRegs Instr.remU32 ∧
    opcodeMap 196 = .threeRegs Instr.remS32) ∧
    ∀ (s : State) (rD rA rB : Reg),
      Writes (.divU32 rD rA rB) s rD (fun v =>
        let a : Nat := (s.reg rA).toNat % 2 ^ 32
        let b : Nat := (s.reg rB).toNat % 2 ^ 32
        if b = 0 then v.toNat = 2 ^ 64 - 1 else v.toInt = Int.bmod (a / b : Nat) (2 ^ 32)) ∧
      Writes (.divS32 rD rA rB) s rD (fun v =>
        let a := Int.bmod (s.reg rA).toInt (2 ^ 32)
        let b := Int.bmod (s.reg rB).toInt (2 ^ 32)
        if b = 0 then v.toNat = 2 ^ 64 - 1 else if a = -2 ^ 31 ∧ b = -1 then v.toInt = a else v.toInt = a.tdiv b) ∧
      Writes (.remU32 rD rA rB) s rD (fun v =>
        let a : Nat := (s.reg rA).toNat % 2 ^ 32
        let b : Nat := (s.reg rB).toNat % 2 ^ 32
        if b = 0 then v.toInt = Int.bmod a (2 ^ 32) else v.toInt = Int.bmod (a % b : Nat) (2 ^ 32)) ∧
      Writes (.remS32 rD rA rB) s rD (fun v =>
        let a := Int.bmod (s.reg rA).toInt (2 ^ 32)
        let b := Int.bmod (s.reg rB).toInt (2 ^ 32)
        if b = 0 then v.toInt = a else if a = -2 ^ 31 ∧ b = -1 then v.toInt = 0 else v.toInt = a - b * a.tdiv b)

/-- O15. The 64-bit divisions and remainders, with division by zero and signed overflow. Each completes for every
state and registers, by zero and on signed overflow too; the results are the exact ones of the rules, and nothing but
the destination changes. Formalises R142, R143, R144, R145. -/
def Obligations.DivRem64Results : Prop :=
  (opcodeMap 203 = .threeRegs Instr.divU64 ∧
    opcodeMap 204 = .threeRegs Instr.divS64 ∧
    opcodeMap 205 = .threeRegs Instr.remU64 ∧
    opcodeMap 206 = .threeRegs Instr.remS64) ∧
    ∀ (s : State) (rD rA rB : Reg),
      Writes (.divU64 rD rA rB) s rD (fun v =>
        if (s.reg rB).toNat = 0 then v.toNat = 2 ^ 64 - 1 else v.toNat = (s.reg rA).toNat / (s.reg rB).toNat) ∧
      Writes (.divS64 rD rA rB) s rD (fun v =>
        let a := (s.reg rA).toInt
        let b := (s.reg rB).toInt
        if b = 0 then v.toNat = 2 ^ 64 - 1 else if a = -2 ^ 63 ∧ b = -1 then v.toInt = a else v.toInt = a.tdiv b) ∧
      Writes (.remU64 rD rA rB) s rD (fun v =>
        if (s.reg rB).toNat = 0 then v = s.reg rA else v.toNat = (s.reg rA).toNat % (s.reg rB).toNat) ∧
      Writes (.remS64 rD rA rB) s rD (fun v =>
        let a := (s.reg rA).toInt
        let b := (s.reg rB).toInt
        if b = 0 then v.toInt = a else if a = -2 ^ 63 ∧ b = -1 then v.toInt = 0 else v.toInt = a - b * a.tdiv b)

/-- O16. The upper halves of the 128-bit products, for each pairing of signs. Each completes for every state and
registers: the destination, read with the sign of the product, is the exact product divided by 2^64 and rounded down
(the divisor is positive, so the integer division of Lean rounds down); nothing else changes. Formalises R146, R147,
R148. -/
def Obligations.UpperProductResults : Prop :=
  (opcodeMap 213 = .threeRegs Instr.mulUpperSS ∧
    opcodeMap 214 = .threeRegs Instr.mulUpperUU ∧
    opcodeMap 215 = .threeRegs Instr.mulUpperSU) ∧
    ∀ (s : State) (rD rA rB : Reg),
      Writes (.mulUpperSS rD rA rB) s rD (fun v =>
        v.toInt = (s.reg rA).toInt * (s.reg rB).toInt / 2 ^ 64) ∧
      Writes (.mulUpperUU rD rA rB) s rD (fun v =>
        v.toNat = (s.reg rA).toNat * (s.reg rB).toNat / 2 ^ 64) ∧
      Writes (.mulUpperSU rD rA rB) s rD (fun v =>
        v.toInt = (s.reg rA).toInt * ((s.reg rB).toNat : Int) / 2 ^ 64)

/-- O17. Minimum and maximum, signed and unsigned. Each completes for every state and registers with the larger or
smaller operand, read as signed or as unsigned; nothing but the destination changes. Formalises R149, R150, R151,
R152. -/
def Obligations.MinMaxResults : Prop :=
  (opcodeMap 227 = .threeRegs Instr.max ∧
    opcodeMap 228 = .threeRegs Instr.maxU ∧
    opcodeMap 229 = .threeRegs Instr.min ∧
    opcodeMap 230 = .threeRegs Instr.minU) ∧
    ∀ (s : State) (rD rA rB : Reg),
      Writes (.max rD rA rB) s rD (fun v =>
        v.toInt = max (s.reg rA).toInt (s.reg rB).toInt) ∧
      Writes (.maxU rD rA rB) s rD (fun v =>
        v.toNat = max (s.reg rA).toNat (s.reg rB).toNat) ∧
      Writes (.min rD rA rB) s rD (fun v =>
        v.toInt = min (s.reg rA).toInt (s.reg rB).toInt) ∧
      Writes (.minU rD rA rB) s rD (fun v =>
        v.toNat = min (s.reg rA).toNat (s.reg rB).toNat)

/-- O18. The nine bitwise operations, bit by bit. Each completes for every state and operands: every one of the 64
bits of the destination is the stated function of the operands' bits at that place; nothing else changes. Formalises
R156, R157, R158, R159, R160, R161, R162, R163, R164. -/
def Obligations.BitwiseLogicResults : Prop :=
  (opcodeMap 132 = .twoRegsImm Instr.andImm ∧
    opcodeMap 133 = .twoRegsImm Instr.xorImm ∧
    opcodeMap 134 = .twoRegsImm Instr.orImm ∧
    opcodeMap 210 = .threeRegs Instr.and ∧
    opcodeMap 211 = .threeRegs Instr.xor ∧
    opcodeMap 212 = .threeRegs Instr.or ∧
    opcodeMap 224 = .threeRegs Instr.andInv ∧
    opcodeMap 225 = .threeRegs Instr.orInv ∧
    opcodeMap 226 = .threeRegs Instr.xnor) ∧
    ∀ (s : State) (rD rA rB : Reg) (immX : Word),
      Writes (.andImm rA rB immX) s rA (fun v =>
        ∀ k, k < 64 → v.getLsbD k = ((s.reg rB).getLsbD k && immX.getLsbD k)) ∧
      Writes (.xorImm rA rB immX) s rA (fun v =>
        ∀ k, k < 64 → v.getLsbD k = (((s.reg rB).getLsbD k).xor (immX.getLsbD k))) ∧
      Writes (.orImm rA rB immX) s rA (fun v =>
        ∀ k, k < 64 → v.getLsbD k = ((s.reg rB).getLsbD k || immX.getLsbD k)) ∧
      Writes (.and rD rA rB) s rD (fun v =>
        ∀ k, k < 64 → v.getLsbD k = ((s.reg rA).getLsbD k && (s.reg rB).getLsbD k)) ∧
      Writes (.xor rD rA rB) s rD (fun v =>
        ∀ k, k < 64 → v.getLsbD k = (((s.reg rA).getLsbD k).xor ((s.reg rB).getLsbD k))) ∧
      Writes (.or rD rA rB) s rD (fun v =>
        ∀ k, k < 64 → v.getLsbD k = ((s.reg rA).getLsbD k || (s.reg rB).getLsbD k)) ∧
      Writes (.andInv rD rA rB) s rD (fun v =>
        ∀ k, k < 64 → v.getLsbD k = ((s.reg rA).getLsbD k && !(s.reg rB).getLsbD k)) ∧
      Writes (.orInv rD rA rB) s rD (fun v =>
        ∀ k, k < 64 → v.getLsbD k = ((s.reg rA).getLsbD k || !(s.reg rB).getLsbD k)) ∧
      Writes (.xnor rD rA rB) s rD (fun v =>
        ∀ k, k < 64 → v.getLsbD k = (!((s.reg rA).getLsbD k).xor ((s.reg rB).getLsbD k)))

/-- O19. The 32-bit shifts: logical left, logical right, arithmetic right. Each completes for every state and
operands, with the count taken modulo 32, in the immediate, the alternative (value and count swapped) and the register
form: left is multiplication, right is division rounded down, of the unsigned or the signed value, and the 32-bit
result is sign-extended; nothing but the destination changes. Formalises R165, R166, R167, R168, R169, R170, R177,
R178, R179. -/
def Obligations.Shift32Results : Prop :=
  (opcodeMap 138 = .twoRegsImm Instr.shloLImm32 ∧
    opcodeMap 139 = .twoRegsImm Instr.shloRImm32 ∧
    opcodeMap 140 = .twoRegsImm Instr.sharRImm32 ∧
    opcodeMap 144 = .twoRegsImm Instr.shloLImmAlt32 ∧
    opcodeMap 145 = .twoRegsImm Instr.shloRImmAlt32 ∧
    opcodeMap 146 = .twoRegsImm Instr.sharRImmAlt32 ∧
    opcodeMap 197 = .threeRegs Instr.shloL32 ∧
    opcodeMap 198 = .threeRegs Instr.shloR32 ∧
    opcodeMap 199 = .threeRegs Instr.sharR32) ∧
    ∀ (s : State) (rD rA rB : Reg) (immX : Word),
      Writes (.shloLImm32 rA rB immX) s rA (fun v =>
        v.toInt = Int.bmod ((s.reg rB).toNat * 2 ^ (immX.toNat % 32) : Nat) (2 ^ 32)) ∧
      Writes (.shloRImm32 rA rB immX) s rA (fun v =>
        v.toInt = Int.bmod ((s.reg rB).toNat % 2 ^ 32 / 2 ^ (immX.toNat % 32) : Nat) (2 ^ 32)) ∧
      Writes (.sharRImm32 rA rB immX) s rA (fun v =>
        v.toInt = Int.bmod (s.reg rB).toInt (2 ^ 32) / 2 ^ (immX.toNat % 32)) ∧
      Writes (.shloLImmAlt32 rA rB immX) s rA (fun v =>
        v.toInt = Int.bmod (immX.toNat * 2 ^ ((s.reg rB).toNat % 32) : Nat) (2 ^ 32)) ∧
      Writes (.shloRImmAlt32 rA rB immX) s rA (fun v =>
        v.toInt = Int.bmod (immX.toNat % 2 ^ 32 / 2 ^ ((s.reg rB).toNat % 32) : Nat) (2 ^ 32)) ∧
      Writes (.sharRImmAlt32 rA rB immX) s rA (fun v =>
        v.toInt = Int.bmod immX.toInt (2 ^ 32) / 2 ^ ((s.reg rB).toNat % 32)) ∧
      Writes (.shloL32 rD rA rB) s rD (fun v =>
        v.toInt = Int.bmod ((s.reg rA).toNat * 2 ^ ((s.reg rB).toNat % 32) : Nat) (2 ^ 32)) ∧
      Writes (.shloR32 rD rA rB) s rD (fun v =>
        v.toInt = Int.bmod ((s.reg rA).toNat % 2 ^ 32 / 2 ^ ((s.reg rB).toNat % 32) : Nat) (2 ^ 32)) ∧
      Writes (.sharR32 rD rA rB) s rD (fun v =>
        v.toInt = Int.bmod (s.reg rA).toInt (2 ^ 32) / 2 ^ ((s.reg rB).toNat % 32))

/-- O20. The 64-bit shifts: logical left, logical right, arithmetic right. Each completes for every state and
operands, with the count taken modulo 64, in the immediate, the alternative (value and count swapped) and the register
form: left is multiplication, right is division rounded down, of the unsigned or the signed value; nothing but the
destination changes. Formalises R171, R172, R173, R174, R175, R176, R180, R181, R182. -/
def Obligations.Shift64Results : Prop :=
  (opcodeMap 151 = .twoRegsImm Instr.shloLImm64 ∧
    opcodeMap 152 = .twoRegsImm Instr.shloRImm64 ∧
    opcodeMap 153 = .twoRegsImm Instr.sharRImm64 ∧
    opcodeMap 155 = .twoRegsImm Instr.shloLImmAlt64 ∧
    opcodeMap 156 = .twoRegsImm Instr.shloRImmAlt64 ∧
    opcodeMap 157 = .twoRegsImm Instr.sharRImmAlt64 ∧
    opcodeMap 207 = .threeRegs Instr.shloL64 ∧
    opcodeMap 208 = .threeRegs Instr.shloR64 ∧
    opcodeMap 209 = .threeRegs Instr.sharR64) ∧
    ∀ (s : State) (rD rA rB : Reg) (immX : Word),
      Writes (.shloLImm64 rA rB immX) s rA (fun v =>
        v.toNat = (s.reg rB).toNat * 2 ^ (immX.toNat % 64) % 2 ^ 64) ∧
      Writes (.shloRImm64 rA rB immX) s rA (fun v =>
        v.toNat = (s.reg rB).toNat / 2 ^ (immX.toNat % 64)) ∧
      Writes (.sharRImm64 rA rB immX) s rA (fun v =>
        v.toInt = (s.reg rB).toInt / 2 ^ (immX.toNat % 64)) ∧
      Writes (.shloLImmAlt64 rA rB immX) s rA (fun v =>
        v.toNat = immX.toNat * 2 ^ ((s.reg rB).toNat % 64) % 2 ^ 64) ∧
      Writes (.shloRImmAlt64 rA rB immX) s rA (fun v =>
        v.toNat = immX.toNat / 2 ^ ((s.reg rB).toNat % 64)) ∧
      Writes (.sharRImmAlt64 rA rB immX) s rA (fun v =>
        v.toInt = immX.toInt / 2 ^ ((s.reg rB).toNat % 64)) ∧
      Writes (.shloL64 rD rA rB) s rD (fun v =>
        v.toNat = (s.reg rA).toNat * 2 ^ ((s.reg rB).toNat % 64) % 2 ^ 64) ∧
      Writes (.shloR64 rD rA rB) s rD (fun v =>
        v.toNat = (s.reg rA).toNat / 2 ^ ((s.reg rB).toNat % 64)) ∧
      Writes (.sharR64 rD rA rB) s rD (fun v =>
        v.toInt = (s.reg rA).toInt / 2 ^ ((s.reg rB).toNat % 64))

/-- O21. The rotates, bit by bit. Each completes for every state and operands: every bit moves by the count modulo the
width, out of one end and into the other; a 32-bit result fills the upper half with copies of its bit 31; nothing but
the destination changes. Formalises R183, R184, R185, R186, R187, R188, R189, R190. -/
def Obligations.RotateResults : Prop :=
  (opcodeMap 158 = .twoRegsImm Instr.rotR64Imm ∧
    opcodeMap 159 = .twoRegsImm Instr.rotR64ImmAlt ∧
    opcodeMap 160 = .twoRegsImm Instr.rotR32Imm ∧
    opcodeMap 161 = .twoRegsImm Instr.rotR32ImmAlt ∧
    opcodeMap 220 = .threeRegs Instr.rotL64 ∧
    opcodeMap 221 = .threeRegs Instr.rotL32 ∧
    opcodeMap 222 = .threeRegs Instr.rotR64 ∧
    opcodeMap 223 = .threeRegs Instr.rotR32) ∧
    ∀ (s : State) (rD rA rB : Reg) (immX : Word),
      Writes (.rotR64Imm rA rB immX) s rA (fun v =>
        ∀ k, k < 64 → v.getLsbD k = (s.reg rB).getLsbD ((k + immX.toNat) % 64)) ∧
      Writes (.rotR64ImmAlt rA rB immX) s rA (fun v =>
        ∀ k, k < 64 → v.getLsbD k = immX.getLsbD ((k + (s.reg rB).toNat) % 64)) ∧
      Writes (.rotR32Imm rA rB immX) s rA (fun v =>
        (∀ k, k < 32 → v.getLsbD k = (s.reg rB).getLsbD ((k + immX.toNat) % 32)) ∧
          ∀ k, 32 ≤ k → k < 64 → v.getLsbD k = v.getLsbD 31) ∧
      Writes (.rotR32ImmAlt rA rB immX) s rA (fun v =>
        (∀ k, k < 32 → v.getLsbD k = immX.getLsbD ((k + (s.reg rB).toNat) % 32)) ∧
          ∀ k, 32 ≤ k → k < 64 → v.getLsbD k = v.getLsbD 31) ∧
      Writes (.rotL64 rD rA rB) s rD (fun v =>
        ∀ k, k < 64 → v.getLsbD ((k + (s.reg rB).toNat) % 64) = (s.reg rA).getLsbD k) ∧
      Writes (.rotL32 rD rA rB) s rD (fun v =>
        (∀ k, k < 32 → v.getLsbD ((k + (s.reg rB).toNat) % 32) = (s.reg rA).getLsbD k) ∧
          ∀ k, 32 ≤ k → k < 64 → v.getLsbD k = v.getLsbD 31) ∧
      Writes (.rotR64 rD rA rB) s rD (fun v =>
        ∀ k, k < 64 → v.getLsbD k = (s.reg rA).getLsbD ((k + (s.reg rB).toNat) % 64)) ∧
      Writes (.rotR32 rD rA rB) s rD (fun v =>
        (∀ k, k < 32 → v.getLsbD k = (s.reg rA).getLsbD ((k + (s.reg rB).toNat) % 32)) ∧
          ∀ k, 32 ≤ k → k < 64 → v.getLsbD k = v.getLsbD 31)

/-- O22. Population, leading-zero and trailing-zero counts. Each completes for every state and registers: the number
of 1 bits in the width, or the number of 0 bits before the first 1 bit from the top or from the bottom, and the width
itself where there is none; nothing but the destination changes. Formalises R191, R192, R193, R194, R195, R196. -/
def Obligations.BitCountResults : Prop :=
  (opcodeMap 102 = .twoRegs Instr.countSetBits64 ∧
    opcodeMap 103 = .twoRegs Instr.countSetBits32 ∧
    opcodeMap 104 = .twoRegs Instr.leadingZeroBits64 ∧
    opcodeMap 105 = .twoRegs Instr.leadingZeroBits32 ∧
    opcodeMap 106 = .twoRegs Instr.trailingZeroBits64 ∧
    opcodeMap 107 = .twoRegs Instr.trailingZeroBits32) ∧
    ∀ (s : State) (rD rA : Reg),
      Writes (.countSetBits64 rD rA) s rD (fun v =>
        v.toNat = ((Finset.range 64).filter (fun k => (s.reg rA).getLsbD k = true)).card) ∧
      Writes (.countSetBits32 rD rA) s rD (fun v =>
        v.toNat = ((Finset.range 32).filter (fun k => (s.reg rA).getLsbD k = true)).card) ∧
      Writes (.leadingZeroBits64 rD rA) s rD (fun v =>
        v.toNat ≤ 64 ∧ (∀ j, j < v.toNat → (s.reg rA).getLsbD (63 - j) = false) ∧
          (v.toNat < 64 → (s.reg rA).getLsbD (63 - v.toNat) = true)) ∧
      Writes (.leadingZeroBits32 rD rA) s rD (fun v =>
        v.toNat ≤ 32 ∧ (∀ j, j < v.toNat → (s.reg rA).getLsbD (31 - j) = false) ∧
          (v.toNat < 32 → (s.reg rA).getLsbD (31 - v.toNat) = true)) ∧
      Writes (.trailingZeroBits64 rD rA) s rD (fun v =>
        v.toNat ≤ 64 ∧ (∀ j, j < v.toNat → (s.reg rA).getLsbD j = false) ∧
          (v.toNat < 64 → (s.reg rA).getLsbD v.toNat = true)) ∧
      Writes (.trailingZeroBits32 rD rA) s rD (fun v =>
        v.toNat ≤ 32 ∧ (∀ j, j < v.toNat → (s.reg rA).getLsbD j = false) ∧
          (v.toNat < 32 → (s.reg rA).getLsbD v.toNat = true))

/-- O23. Sign and zero extension, and byte reversal. Each completes for every state and registers with the low 8 or 16
bits read as signed or unsigned, or with byte k of the result equal to byte 7 - k of the source; nothing but the
destination changes. Formalises R197, R198, R199, R200. -/
def Obligations.ExtensionAndByteOrderResults : Prop :=
  (opcodeMap 108 = .twoRegs Instr.signExtend8 ∧
    opcodeMap 109 = .twoRegs Instr.signExtend16 ∧
    opcodeMap 110 = .twoRegs Instr.zeroExtend16 ∧
    opcodeMap 111 = .twoRegs Instr.reverseBytes) ∧
    ∀ (s : State) (rD rA : Reg),
      Writes (.signExtend8 rD rA) s rD (fun v =>
        v.toInt = Int.bmod (s.reg rA).toInt (2 ^ 8)) ∧
      Writes (.signExtend16 rD rA) s rD (fun v =>
        v.toInt = Int.bmod (s.reg rA).toInt (2 ^ 16)) ∧
      Writes (.zeroExtend16 rD rA) s rD (fun v =>
        v.toNat = (s.reg rA).toNat % 2 ^ 16) ∧
      Writes (.reverseBytes rD rA) s rD (fun v =>
        ∀ k, k < 8 → v.toNat / 256 ^ k % 256 = (s.reg rA).toNat / 256 ^ (7 - k) % 256)

/-- O24. The set-on-compare instructions write exactly 0 or 1. Each completes for every state and operands with 1
where the 64-bit comparison holds and 0 where it does not; nothing but the destination changes. Formalises R203, R204,
R205, R206, R207, R208. -/
def Obligations.SetOnCompareResults : Prop :=
  (opcodeMap 136 = .twoRegsImm Instr.setLtUImm ∧
    opcodeMap 137 = .twoRegsImm Instr.setLtSImm ∧
    opcodeMap 142 = .twoRegsImm Instr.setGtUImm ∧
    opcodeMap 143 = .twoRegsImm Instr.setGtSImm ∧
    opcodeMap 216 = .threeRegs Instr.setLtU ∧
    opcodeMap 217 = .threeRegs Instr.setLtS) ∧
    ∀ (s : State) (rD rA rB : Reg) (immX : Word),
      Writes (.setLtUImm rA rB immX) s rA (fun v =>
        v.toNat = if (s.reg rB).toNat < immX.toNat then 1 else 0) ∧
      Writes (.setLtSImm rA rB immX) s rA (fun v =>
        v.toNat = if (s.reg rB).toInt < immX.toInt then 1 else 0) ∧
      Writes (.setGtUImm rA rB immX) s rA (fun v =>
        v.toNat = if (s.reg rB).toNat > immX.toNat then 1 else 0) ∧
      Writes (.setGtSImm rA rB immX) s rA (fun v =>
        v.toNat = if (s.reg rB).toInt > immX.toInt then 1 else 0) ∧
      Writes (.setLtU rD rA rB) s rD (fun v =>
        v.toNat = if (s.reg rA).toNat < (s.reg rB).toNat then 1 else 0) ∧
      Writes (.setLtS rD rA rB) s rD (fun v =>
        v.toNat = if (s.reg rA).toInt < (s.reg rB).toInt then 1 else 0)

/-- O25. move_reg, load_imm and load_imm_64 write all 64 bits. Each completes for every state and operands with the
source register or the immediate in the destination; nothing else changes. Formalises R209, R214, R215. -/
def Obligations.MoveAndLoadImmediateResults : Prop :=
  (opcodeMap 100 = .twoRegs Instr.moveReg ∧
    opcodeMap 51 = .regImm Instr.loadImm ∧
    opcodeMap 20 = .regExtImm Instr.loadImm64) ∧
    ∀ (s : State) (rD rA : Reg) (immX : Word),
      Writes (.moveReg rD rA) s rD (fun v => v = s.reg rA) ∧
      Writes (.loadImm rA immX) s rA (fun v => v = immX) ∧
      Writes (.loadImm64 rA immX) s rA (fun v => v = immX)

/-- O26. The conditional moves write or keep their destination. Each completes for every state and operands: where all
64 bits of rB test as the mnemonic asks, the destination gets the immediate or the source; where they do not, nothing
changes at all. Formalises R210, R211, R212, R213. -/
def Obligations.ConditionalMoveResults : Prop :=
  (opcodeMap 147 = .twoRegsImm Instr.cmovIzImm ∧
    opcodeMap 148 = .twoRegsImm Instr.cmovNzImm ∧
    opcodeMap 218 = .threeRegs Instr.cmovIz ∧
    opcodeMap 219 = .threeRegs Instr.cmovNz) ∧
    ∀ (s : State) (rD rA rB : Reg) (immX : Word),
      (s.reg rB = 0#64 → Writes (.cmovIzImm rA rB immX) s rA (fun v => v = immX)) ∧
      (s.reg rB ≠ 0#64 → ChangesNothing (.cmovIzImm rA rB immX) s) ∧
      (s.reg rB ≠ 0#64 → Writes (.cmovNzImm rA rB immX) s rA (fun v => v = immX)) ∧
      (s.reg rB = 0#64 → ChangesNothing (.cmovNzImm rA rB immX) s) ∧
      (s.reg rB = 0#64 → Writes (.cmovIz rD rA rB) s rD (fun v => v = s.reg rA)) ∧
      (s.reg rB ≠ 0#64 → ChangesNothing (.cmovIz rD rA rB) s) ∧
      (s.reg rB ≠ 0#64 → Writes (.cmovNz rD rA rB) s rD (fun v => v = s.reg rA)) ∧
      (s.reg rB = 0#64 → ChangesNothing (.cmovNz rD rA rB) s)

/-- O27. Effective addresses are 32 bits wide and wrap. The absolute address is the immediate modulo 2^32, the
indirect address is the sum of the base register and the immediate modulo 2^32, and byte k of an access lies k bytes
on, modulo 2^32. These are the functions the load, store and dynamic-jump statements name their addresses with. Rests
on R53, R216, 44_load_store.md section 1. -/
def Obligations.EffectiveAddresses : Prop :=
  ∀ (s : State) (r : Reg) (immX : Word) (a : Addr) (k : Nat),
    (absAddr immX).toNat = immX.toNat % 2 ^ 32 ∧
      (s.indAddr r immX).toNat = ((s.reg r).toNat + immX.toNat) % 2 ^ 32 ∧
      (byteAddr a k).toNat = (a.toNat + k) % 2 ^ 32

/-- O28. The loads from an absolute address: value, frame, page fault. Where all the bytes can be read the instruction
completes: the destination is their little-endian number, zero-extended or sign-extended as its name says, and nothing
else changes. Otherwise the record holds FAULT at the first byte that cannot be read, in access order with addresses
modulo 2^32, memory and every register but the destination are unchanged, and nothing is said of the destination (it
is a free value, log 4). Formalises R221, R222, R223, R224, R225, R226, R227. -/
def Obligations.AbsoluteLoadResults : Prop :=
  (opcodeMap 52 = .regImm Instr.loadU8 ∧
    opcodeMap 53 = .regImm Instr.loadI8 ∧
    opcodeMap 54 = .regImm Instr.loadU16 ∧
    opcodeMap 55 = .regImm Instr.loadI16 ∧
    opcodeMap 56 = .regImm Instr.loadU32 ∧
    opcodeMap 57 = .regImm Instr.loadI32 ∧
    opcodeMap 58 = .regImm Instr.loadU64) ∧
    ∀ (s : State) (rA : Reg) (immX : Word),
      Loads (.loadU8 rA immX) s rA (absAddr immX) 1 (fun x v => v.toNat = x) ∧
      Loads (.loadI8 rA immX) s rA (absAddr immX) 1 (fun x v => v.toInt = Int.bmod x (2 ^ 8)) ∧
      Loads (.loadU16 rA immX) s rA (absAddr immX) 2 (fun x v => v.toNat = x) ∧
      Loads (.loadI16 rA immX) s rA (absAddr immX) 2 (fun x v => v.toInt = Int.bmod x (2 ^ 16)) ∧
      Loads (.loadU32 rA immX) s rA (absAddr immX) 4 (fun x v => v.toNat = x) ∧
      Loads (.loadI32 rA immX) s rA (absAddr immX) 4 (fun x v => v.toInt = Int.bmod x (2 ^ 32)) ∧
      Loads (.loadU64 rA immX) s rA (absAddr immX) 8 (fun x v => v.toNat = x)

/-- O29. The loads from a register plus an immediate: value, frame, page fault. The address is the old base register
plus the immediate, modulo 2^32. Where all the bytes can be read the instruction completes: the destination is their
little-endian number, zero-extended or sign-extended as its name says, and nothing else changes. Otherwise the record
holds FAULT at the first byte that cannot be read, in access order with addresses modulo 2^32, memory and every
register but the destination are unchanged, and nothing is said of the destination (it is a free value, log 4).
Formalises R228, R229, R230, R231, R232, R233, R234. -/
def Obligations.IndirectLoadResults : Prop :=
  (opcodeMap 124 = .twoRegsImm Instr.loadIndU8 ∧
    opcodeMap 125 = .twoRegsImm Instr.loadIndI8 ∧
    opcodeMap 126 = .twoRegsImm Instr.loadIndU16 ∧
    opcodeMap 127 = .twoRegsImm Instr.loadIndI16 ∧
    opcodeMap 128 = .twoRegsImm Instr.loadIndU32 ∧
    opcodeMap 129 = .twoRegsImm Instr.loadIndI32 ∧
    opcodeMap 130 = .twoRegsImm Instr.loadIndU64) ∧
    ∀ (s : State) (rA rB : Reg) (immX : Word),
      Loads (.loadIndU8 rA rB immX) s rA (s.indAddr rB immX) 1 (fun x v => v.toNat = x) ∧
      Loads (.loadIndI8 rA rB immX) s rA (s.indAddr rB immX) 1 (fun x v => v.toInt = Int.bmod x (2 ^ 8)) ∧
      Loads (.loadIndU16 rA rB immX) s rA (s.indAddr rB immX) 2 (fun x v => v.toNat = x) ∧
      Loads (.loadIndI16 rA rB immX) s rA (s.indAddr rB immX) 2 (fun x v => v.toInt = Int.bmod x (2 ^ 16)) ∧
      Loads (.loadIndU32 rA rB immX) s rA (s.indAddr rB immX) 4 (fun x v => v.toNat = x) ∧
      Loads (.loadIndI32 rA rB immX) s rA (s.indAddr rB immX) 4 (fun x v => v.toInt = Int.bmod x (2 ^ 32)) ∧
      Loads (.loadIndU64 rA rB immX) s rA (s.indAddr rB immX) 8 (fun x v => v.toNat = x)

/-- O30. The stores of a register: bytes, frame, page fault, page-split store. Where all the bytes can be written the
instruction completes: they read back as the low bytes of the value, little-endian, every other byte reads as before,
and permissions, registers and the rest are unchanged. Otherwise the record holds FAULT at the first byte that cannot
be written; the bytes on the first page are stored where the fault lies beyond them and none is stored otherwise;
every other byte, every register and the rest are unchanged. Formalises R235, R236, R237, R238, R239, R240, R241,
R242. -/
def Obligations.RegisterStoreResults : Prop :=
  (opcodeMap 59 = .regImm Instr.storeU8 ∧
    opcodeMap 60 = .regImm Instr.storeU16 ∧
    opcodeMap 61 = .regImm Instr.storeU32 ∧
    opcodeMap 62 = .regImm Instr.storeU64 ∧
    opcodeMap 120 = .twoRegsImm Instr.storeIndU8 ∧
    opcodeMap 121 = .twoRegsImm Instr.storeIndU16 ∧
    opcodeMap 122 = .twoRegsImm Instr.storeIndU32 ∧
    opcodeMap 123 = .twoRegsImm Instr.storeIndU64) ∧
    ∀ (s : State) (rA rB : Reg) (immX : Word),
      StoresOrFaults (.storeU8 rA immX) s (absAddr immX) 1 (s.reg rA) ∧
      StoresOrFaults (.storeU16 rA immX) s (absAddr immX) 2 (s.reg rA) ∧
      StoresOrFaults (.storeU32 rA immX) s (absAddr immX) 4 (s.reg rA) ∧
      StoresOrFaults (.storeU64 rA immX) s (absAddr immX) 8 (s.reg rA) ∧
      StoresOrFaults (.storeIndU8 rA rB immX) s (s.indAddr rB immX) 1 (s.reg rA) ∧
      StoresOrFaults (.storeIndU16 rA rB immX) s (s.indAddr rB immX) 2 (s.reg rA) ∧
      StoresOrFaults (.storeIndU32 rA rB immX) s (s.indAddr rB immX) 4 (s.reg rA) ∧
      StoresOrFaults (.storeIndU64 rA rB immX) s (s.indAddr rB immX) 8 (s.reg rA)

/-- O31. The stores of an immediate: bytes, frame, page fault, page-split store. Where all the bytes can be written
the instruction completes: they read back as the low bytes of the value, little-endian, every other byte reads as
before, and permissions, registers and the rest are unchanged. Otherwise the record holds FAULT at the first byte that
cannot be written; the bytes on the first page are stored where the fault lies beyond them and none is stored
otherwise; every other byte, every register and the rest are unchanged. Formalises R243, R244, R245, R246, R247, R248,
R249, R250. -/
def Obligations.ImmediateStoreResults : Prop :=
  (opcodeMap 30 = .twoImms Instr.storeImmU8 ∧
    opcodeMap 31 = .twoImms Instr.storeImmU16 ∧
    opcodeMap 32 = .twoImms Instr.storeImmU32 ∧
    opcodeMap 33 = .twoImms Instr.storeImmU64 ∧
    opcodeMap 70 = .regTwoImms Instr.storeImmIndU8 ∧
    opcodeMap 71 = .regTwoImms Instr.storeImmIndU16 ∧
    opcodeMap 72 = .regTwoImms Instr.storeImmIndU32 ∧
    opcodeMap 73 = .regTwoImms Instr.storeImmIndU64) ∧
    ∀ (s : State) (rA : Reg) (immX immY : Word),
      StoresOrFaults (.storeImmU8 immX immY) s (absAddr immX) 1 immY ∧
      StoresOrFaults (.storeImmU16 immX immY) s (absAddr immX) 2 immY ∧
      StoresOrFaults (.storeImmU32 immX immY) s (absAddr immX) 4 immY ∧
      StoresOrFaults (.storeImmU64 immX immY) s (absAddr immX) 8 immY ∧
      StoresOrFaults (.storeImmIndU8 rA immX immY) s (s.indAddr rA immX) 1 immY ∧
      StoresOrFaults (.storeImmIndU16 rA immX immY) s (s.indAddr rA immX) 2 immY ∧
      StoresOrFaults (.storeImmIndU32 rA immX immY) s (s.indAddr rA immX) 4 immY ∧
      StoresOrFaults (.storeImmIndU64 rA immX immY) s (s.indAddr rA immX) 8 immY

/-- O32. The ten branches that compare a register with an immediate. Each completes for every state and operands:
where the 64-bit comparison is false nothing changes; where it is true and the target is a basic-block start the
record holds the target; where it is true and the target is not, the record holds PANIC; nothing else changes.
Formalises R251, R260, R261, R262, R263, R264, R265, R266, R267, R268, R269. -/
def Obligations.BranchImmediateResults : Prop :=
  (opcodeMap 81 = .regImmOffset Instr.branchEqImm ∧
    opcodeMap 82 = .regImmOffset Instr.branchNeImm ∧
    opcodeMap 83 = .regImmOffset Instr.branchLtUImm ∧
    opcodeMap 84 = .regImmOffset Instr.branchLeUImm ∧
    opcodeMap 85 = .regImmOffset Instr.branchGeUImm ∧
    opcodeMap 86 = .regImmOffset Instr.branchGtUImm ∧
    opcodeMap 87 = .regImmOffset Instr.branchLtSImm ∧
    opcodeMap 88 = .regImmOffset Instr.branchLeSImm ∧
    opcodeMap 89 = .regImmOffset Instr.branchGeSImm ∧
    opcodeMap 90 = .regImmOffset Instr.branchGtSImm) ∧
    ∀ (s : State) (rA : Reg) (immX : Word) (target : Addr),
      BranchesIf (.branchEqImm rA immX target) s target (s.reg rA = immX) ∧
      BranchesIf (.branchNeImm rA immX target) s target (s.reg rA ≠ immX) ∧
      BranchesIf (.branchLtUImm rA immX target) s target ((s.reg rA).toNat < immX.toNat) ∧
      BranchesIf (.branchLeUImm rA immX target) s target ((s.reg rA).toNat ≤ immX.toNat) ∧
      BranchesIf (.branchGeUImm rA immX target) s target ((s.reg rA).toNat ≥ immX.toNat) ∧
      BranchesIf (.branchGtUImm rA immX target) s target ((s.reg rA).toNat > immX.toNat) ∧
      BranchesIf (.branchLtSImm rA immX target) s target ((s.reg rA).toInt < immX.toInt) ∧
      BranchesIf (.branchLeSImm rA immX target) s target ((s.reg rA).toInt ≤ immX.toInt) ∧
      BranchesIf (.branchGeSImm rA immX target) s target ((s.reg rA).toInt ≥ immX.toInt) ∧
      BranchesIf (.branchGtSImm rA immX target) s target ((s.reg rA).toInt > immX.toInt)

/-- O33. The six branches that compare two registers. Each completes for every state and operands: where the 64-bit
comparison is false nothing changes; where it is true and the target is a basic-block start the record holds the
target; where it is true and the target is not, the record holds PANIC; nothing else changes. Formalises R251, R270,
R271, R272, R273, R274, R275. -/
def Obligations.BranchRegisterResults : Prop :=
  (opcodeMap 170 = .twoRegsOffset Instr.branchEq ∧
    opcodeMap 171 = .twoRegsOffset Instr.branchNe ∧
    opcodeMap 172 = .twoRegsOffset Instr.branchLtU ∧
    opcodeMap 173 = .twoRegsOffset Instr.branchLtS ∧
    opcodeMap 174 = .twoRegsOffset Instr.branchGeU ∧
    opcodeMap 175 = .twoRegsOffset Instr.branchGeS) ∧
    ∀ (s : State) (rA rB : Reg) (target : Addr),
      BranchesIf (.branchEq rA rB target) s target (s.reg rA = s.reg rB) ∧
      BranchesIf (.branchNe rA rB target) s target (s.reg rA ≠ s.reg rB) ∧
      BranchesIf (.branchLtU rA rB target) s target ((s.reg rA).toNat < (s.reg rB).toNat) ∧
      BranchesIf (.branchLtS rA rB target) s target ((s.reg rA).toInt < (s.reg rB).toInt) ∧
      BranchesIf (.branchGeU rA rB target) s target ((s.reg rA).toNat ≥ (s.reg rB).toNat) ∧
      BranchesIf (.branchGeS rA rB target) s target ((s.reg rA).toInt ≥ (s.reg rB).toInt)

/-- O34. jump and load_imm_jump: the target or PANIC, and the register write that stands. jump leaves its target in
the record where the target is a basic-block start and PANIC where it is not. load_imm_jump does the same and its
register holds the immediate in both cases. Nothing else changes. Formalises R256, R258. -/
def Obligations.JumpResults : Prop :=
  (opcodeMap 40 = .oneOffset Instr.jump ∧
    opcodeMap 80 = .regImmOffset Instr.loadImmJump) ∧
    ∀ (s : State) (rA : Reg) (immX : Word) (target : Addr),
      (target.toNat ∈ s.blocks → Records (.jump target) s (jumpRecord target)) ∧
      (target.toNat ∉ s.blocks → Records (.jump target) s panicRecord) ∧
      ∃ t, exec (.loadImmJump rA immX target) s = .next t ∧
        (target.toNat ∈ s.blocks → t.result = jumpRecord target) ∧
        (target.toNat ∉ s.blocks → t.result = panicRecord) ∧
        t.reg rA = immX ∧ SameRegsBut s t rA ∧ SameMemory s t ∧ SameDriver s t ∧ SameProgram s t ∧
        t.freeCount = s.freeCount

/-- O35. jump_ind and load_imm_jump_ind: HALT at the sentinel, the table entry, or PANIC. Both complete for every
state and operands; the address is the old base register plus the immediate, modulo 2^32. The record holds HALT at
0xFFFF0000, before every other check; PANIC at zero and at odd addresses; PANIC where the index is past the table or
the entry is no basic-block start; else the entry. load_imm_jump_ind writes its register in every case. Nothing else
changes. Formalises R252, R257, R259. -/
def Obligations.DynamicJumpResults : Prop :=
  (opcodeMap 50 = .regImm Instr.jumpInd ∧
    opcodeMap 180 = .twoRegsTwoImms Instr.loadImmJumpInd) ∧
    ∀ (s : State) (rA rB : Reg) (immX immY : Word),
      (∃ t, exec (.jumpInd rA immX) s = .next t ∧ DynamicJumpRecord s (s.indAddr rA immX) t.result ∧
        SameButResult s t) ∧
      ∃ t, exec (.loadImmJumpInd rA rB immX immY) s = .next t ∧
        DynamicJumpRecord s (s.indAddr rB immY) t.result ∧ t.reg rA = immX ∧ SameRegsBut s t rA ∧
        SameMemory s t ∧ SameDriver s t ∧ SameProgram s t ∧ t.freeCount = s.freeCount

/-- O36. trap panics and fallthrough does nothing. trap leaves PANIC in the record and changes nothing else;
fallthrough changes nothing. A step that executes trap charges its gas and ends in PANIC with pc at the trap; a step
that executes fallthrough charges its gas, moves pc to the next instruction and changes no register or memory.
Formalises R254, R255. -/
def Obligations.TrapAndFallthroughResults : Prop :=
  (opcodeMap 0 = .noArgs Instr.trap ∧ opcodeMap 1 = .noArgs Instr.fallthrough) ∧
    ∀ s : State,
      Records .trap s panicRecord ∧ ChangesNothing .fallthrough s ∧
        (Runnable s → 1 ≤ s.gas.toNat →
          ((decode s.prog s.pc).1 = .trap → ∃ t, step s = .next t ∧ PanicsInPlace s t) ∧
            ((decode s.prog s.pc).1 = .fallthrough →
              ∃ t, step s = .next t ∧ t.status = .ok ∧ t.exitParam = none ∧
                t.pc.toNat = (s.pc.toNat + 1 + s.prog.skip s.pc.toNat) % 2 ^ 32 ∧
                t.gas.toNat + 1 = s.gas.toNat ∧ SameRegs s t ∧ SameMemory s t ∧ SameProgram s t))

/-- O37. ecalli pauses for the host with its index, and no other instruction does. ecalli leaves HOST with the
immediate modulo 2^32 in the record and changes nothing else. A step that executes it charges its gas and ends in HOST
with that index as the exit parameter and pc at the next instruction; registers and memory are unchanged. Conversely,
a step that ends in HOST has decoded an ecalli and leaves its index, and the host may then access registers and
memory. Formalises R276, R278. -/
def Obligations.EcalliResult : Prop :=
  opcodeMap 10 = .oneImm Instr.ecalli ∧
    ∀ s : State,
      (∀ immX : Word, Records (.ecalli immX) s { kind := some (.host (BitVec.ofNat 32 immX.toNat)), nextPc := none }) ∧
        (∀ immX : Word, Runnable s → 1 ≤ s.gas.toNat → (decode s.prog s.pc).1 = .ecalli immX →
          ∃ t, step s = .next t ∧ t.status = .host ∧ t.exitParam = some (BitVec.ofNat 32 immX.toNat) ∧
            t.pc.toNat = (s.pc.toNat + 1 + s.prog.skip s.pc.toNat) % 2 ^ 32 ∧
            t.gas.toNat + 1 = s.gas.toNat ∧ SameRegs s t ∧ SameMemory s t ∧ SameProgram s t) ∧
        ∀ t : State, step s = .next t → t.status = .host →
          ∃ immX : Word, (decode s.prog s.pc).1 = .ecalli immX ∧ t.exitParam = some (BitVec.ofNat 32 immX.toNat) ∧
            t.hostMayAccess = true

/-- O38. sbrk grows the heap, returns the old cursor, and answers a request that cannot be met by the policy. In a
canonical memory: where the length is below 2^32 and the new cursor stays within the ceiling sbrk completes with the
old cursor in rD; it moves the cursor, and past the committed boundary it commits writeable, zero-filled pages up to
the next page boundary; a byte that the cursor passes inside the committed pages gets its page's permission and keeps
its content; bytes from the new cursor to the boundary are inaccessible; every byte below the old cursor or beyond the
boundary reads as before. Where the length is 2^32 or more, which is always out of memory (D24; log 20), or the new
cursor passes the ceiling, memory is unchanged and the policy constant decides: rD becomes 0, or the record holds
PANIC. One of the two holds, whichever the policy is. Rests on R69, R71, R277, R279. -/
def Obligations.SbrkResult : Prop :=
  opcodeMap 101 = .twoRegs Instr.sbrk ∧
    ∀ (s : State) (rD rA : Reg), s.mem.wf →
      let newV := s.mem.vsbrk + (s.reg rA).toNat
      ((s.reg rA).toNat < 2 ^ 32 → newV ≤ s.mem.endHeap →
        ∃ t, exec (.sbrk rD rA) s = .next t ∧ (t.reg rD).toNat = s.mem.vsbrk ∧ SameRegsBut s t rD ∧
          SameDriver s t ∧ SameProgram s t ∧ t.result = s.result ∧ t.freeCount = s.freeCount ∧
          t.mem.vsbrk = newV ∧ t.mem.endHeap = s.mem.endHeap ∧
          (newV ≤ s.mem.sbrk → t.mem = { s.mem with vsbrk := newV }) ∧
          (s.mem.sbrk < newV → t.mem.sbrk % 2 ^ 14 = 0 ∧ newV ≤ t.mem.sbrk ∧ t.mem.sbrk < newV + 2 ^ 14 ∧
            ∀ n, findPage t.mem.pages n =
              if s.mem.sbrk / 2 ^ 14 ≤ n ∧ n < t.mem.sbrk / 2 ^ 14 then some .writeable
              else findPage s.mem.pages n) ∧
          (∀ a : Addr, s.mem.sbrk ≤ a.toNat → a.toNat < newV → t.mem.readByte a = some 0#8) ∧
          (∀ a : Addr, s.mem.vsbrk ≤ a.toNat → a.toNat < s.mem.sbrk → a.toNat < newV →
            t.mem.perm a.toNat = s.mem.pagePerm a.toNat ∧ t.mem.val a.toNat = s.mem.val a.toNat) ∧
          (∀ a : Addr, newV ≤ a.toNat → a.toNat < t.mem.sbrk → t.mem.readByte a = none) ∧
          ∀ a : Addr, a.toNat < s.mem.vsbrk ∨ t.mem.sbrk ≤ a.toNat → t.mem.readByte a = s.mem.readByte a) ∧
      (2 ^ 32 ≤ (s.reg rA).toNat ∨ s.mem.endHeap < newV →
        match Config.sbrkOomPolicy with
        | .returnZero => Writes (.sbrk rD rA) s rD (fun v => v.toNat = 0)
        | .panic => Records (.sbrk rD rA) s panicRecord)

/-- O39. A store followed by a load of the same bytes returns the stored value, little-endian. For every memory and
every span of at most 8 writeable bytes, also one that crosses a page or wraps past the top of the address space:
after the store, byte k holds bits 8k+7..8k of the value, every other byte reads as before, and a load of the span
returns the low bytes of the value. Rests on R53, R60, R64, R65, 20_memory.md section 2, 20_memory.md section 3. -/
def Obligations.StoreThenLoadReturnsValue : Prop :=
  ∀ (m : Memory) (a : Addr) (n : Nat) (v : Word), n ≤ 8 → Writeable m a n →
    ∃ m', m.memWrite a n v = (m', none) ∧ m'.memRead a n = .ok (BitVec.ofNat 64 (v.toNat % 256 ^ n)) ∧
      (∀ k, k < n → m'.readByte (byteAddr a k) = some (BitVec.ofNat 8 (v.toNat / 256 ^ k))) ∧
      ∀ b : Addr, (∀ k, k < n → b ≠ byteAddr a k) → m'.readByte b = m.readByte b

/-- O40. Two sbrk requests on a fresh memory: the source's worked property. On a fresh memory, two requests of n bytes
with 0 < n < 16384 answer 0 and then n, and leave exactly one page while 2n stays within it and two pages otherwise.
Formalises R70. -/
def Obligations.FreshHeapTwiceSbrk : Prop :=
  ∀ n : Nat, 0 < n → n < 2 ^ 14 →
    ∃ m m' : Memory, Memory.fresh.growHeap n = some (0, m) ∧ m.growHeap n = some (n, m') ∧
      m.pages = [(0, .writeable)] ∧ m.sbrk = 16384 ∧ m.vsbrk = n ∧ m'.vsbrk = 2 * n ∧
      (2 * n ≤ 16384 → m'.pages = [(0, .writeable)] ∧ m'.sbrk = 16384) ∧
      (16384 < 2 * n → m'.pages = [(0, .writeable), (1, .writeable)] ∧ m'.sbrk = 32768)

/-- O41. isWriteable holds exactly where every byte of the range has permission RW. isWriteable(a, length) is true
exactly when every address (a + k) mod 2^32 with k below the length has permission RW; then a store of that many bytes
at a does not fault. Formalises R67. -/
def Obligations.IsWriteableChecksEveryByte : Prop :=
  ∀ (s : State) (a : Addr) (len : Nat),
    (s.mem.isWriteable a len = true ↔
        ∀ k, k < len → s.mem.perm ((a.toNat + k) % 2 ^ 32) = .readWrite) ∧
      (s.mem.isWriteable a len = true → ∀ bs : List Byte, bs.length = len → (s.mem.storeFrom a bs).2 = none)

/-- O42. What each builder call that succeeds declares, that it keeps the canonical form, and that finalize ends the
builder. A new builder is canonical. From a canonical builder a call that succeeds leaves a canonical one:
setReadablePages and setWriteablePages make every page of the range a whole page of their kind with the data and zero
beyond, and change no other page; setReadable and setWriteable give the bytes of the range, in a VirtualPage, their
permission and the data, and change no other byte; setData writes its bytes and changes no page. A finalize that
succeeds gives a canonical memory with these pages and contents, SBRK = VSBRK and ENDHEAP as asked, and every later
call on the builder, with any arguments, fails. Rests on R55, R56, R57, R72, R73, 20_memory.md section 5. -/
def Obligations.BuilderCallsKeepCanonicalForm : Prop :=
  Builder.new.wf ∧
    ∀ (b c : Builder), b.wf → ∀ (start stop : Nat) (data : List Byte),
      (b.setReadablePages start stop data = .next c → c.wf ∧ PagesDeclared b c .readable start stop data) ∧
        (b.setWriteablePages start stop data = .next c → c.wf ∧ PagesDeclared b c .writeable start stop data) ∧
        (b.setReadable start stop data = .next c → c.wf ∧ ChunkDeclared b c .readOnly start stop data) ∧
        (b.setWriteable start stop data = .next c → c.wf ∧ ChunkDeclared b c .readWrite start stop data) ∧
        (b.setData start data = .next c → c.wf ∧ c.pages = b.pages ∧ ContentWritten b c start data) ∧
        ∀ m : Memory, b.finalize start stop = .next (m, c) →
          m.wf ∧ m.pages = b.pages ∧ m.cells = b.cells ∧ m.sbrk = start ∧ m.vsbrk = start ∧ m.endHeap = stop ∧
            RefusesEveryCall c

/-- O43. A step runs the decoded instruction and commits its record. In OK or HOST with at least one gas unit, where
the bytes at pc decode to i with l argument bytes: the step is exec of i on the state with one gas unit taken, STATUS
OK, no exit parameter and an empty result record, whatever the record held before, with the run begun (the model's own
flag, log 8), followed by commit with l. Rests on R102, R108, R109, R111, R112, R309. -/
def Obligations.StepRunsDecodedInstruction : Prop :=
  ∀ (s u : State) (i : Instr) (l : Nat), Runnable s → 1 ≤ s.gas.toNat → decode s.prog s.pc = (i, l) →
    exec i { s with
        gas := s.gas - 1#64
        status := .ok
        exitParam := none
        result := { kind := none, nextPc := none }
        started := true } = .next u →
    step s = .next (u.commit l)

/-- O44. The commit table: what each result record makes of pc, STATUS, EXIT_PARAM and GAS. No instruction's operation
writes pc, GAS, STATUS or EXIT_PARAM; commit does. Empty record: pc becomes NEXT and STATUS OK. A target: pc becomes
it. HALT and PANIC leave pc. FAULT(a) ends in PANIC with a as the exit parameter and one more gas unit charged, GAS 0
where that underflows. HOST(n) ends in HOST with n and pc at NEXT. Registers, memory and program are unchanged.
Nothing is said of what the result record holds after commit, which the spec leaves open (log 6). Formalises R113. -/
def Obligations.CommitTable : Prop :=
  (∀ (i : Instr) (s t : State), exec i s = .next t → SameDriver s t) ∧
  ∀ (s : State) (l : Nat),
    let next := BitVec.ofNat 32 (s.pc.toNat + 1 + l)
    (s.result = { kind := none, nextPc := none } → CommitsTo s (s.commit l) next .ok none s.gas) ∧
      (∀ t, s.result = jumpRecord t → CommitsTo s (s.commit l) t .ok none s.gas) ∧
      (s.result = haltRecord → CommitsTo s (s.commit l) s.pc .halt none s.gas) ∧
      (s.result = panicRecord → CommitsTo s (s.commit l) s.pc .panic none s.gas) ∧
      (∀ a, s.result = faultRecord a →
        CommitsTo s (s.commit l) s.pc .panic (some a) (if s.gas.toNat < 1 then 0#64 else s.gas - 1#64)) ∧
      ∀ n, s.result = { kind := some (.host n), nextPc := none } →
        CommitsTo s (s.commit l) next .host (some n) s.gas

/-- O45. A step without gas ends in OOG and does nothing else. In OK or HOST with GAS 0, which no cost fits, the step
ends in OOG with GAS 0 and no exit parameter, before any effect of the instruction: pc, registers, memory and program
are unchanged. With one gas unit or more, which is the cost of every opcode, the step does not end in OOG. Formalises
R111. -/
def Obligations.OutOfGasStopsBeforeAnyEffect : Prop :=
  ∀ s : State, Runnable s →
    (s.gas.toNat = 0 →
      ∃ t, step s = .next t ∧ t.status = .oog ∧ t.exitParam = none ∧ t.gas.toNat = 0 ∧ t.pc = s.pc ∧ SameRegs s t ∧
        SameMemory s t ∧ SameProgram s t) ∧
    (1 ≤ s.gas.toNat → ∃ t, step s = .next t ∧ t.status ≠ .oog)

/-- O46. HALT, PANIC and OOG are final. A step in HALT, PANIC or OOG executes nothing and changes nothing. Rests on
R109, R287. -/
def Obligations.FinalStatusesAbsorb : Prop :=
  ∀ s : State, s.status = .halt ∨ s.status = .panic ∨ s.status = .oog → step s = .next s

/-- O47. A step from HOST resumes at pc as if STATUS were OK. The step after a host call sets STATUS to OK and the
exit parameter to none and executes the instruction at pc, which setNextPC may have moved, modulo 2^32 and unchecked.
Rests on R109, R290, R291. -/
def Obligations.HostPauseResumes : Prop :=
  ∀ s : State, s.status = .host →
    step s = step { s with status := .ok, exitParam := none } ∧
      ∀ t : Nat, step (s.setNextPC t) =
        step { s with pc := BitVec.ofNat 32 (t % 2 ^ 32), status := .ok, exitParam := none }

/-- O48. Every step keeps the invariant of a good state. From every state with canonical memory (content, page map and
heap cursors), an accepted program with its own basic-block set, an exit parameter that fits STATUS, at most one
outcome in the record and STATUS OK where no step has begun since reset (log 8), a step leads to such a state,
whatever instruction it runs. Rests on R43, R45, R49, R69, R81, R112, R113. -/
def Obligations.EveryStepKeepsTheInvariant : Prop :=
  ∀ s t : State, s.Inv → step s = .next t → t.Inv

/-- O49. Reset leaves a good state. The state after reset meets the invariant, and so does the state after a reset by
the host with any program it accepts, any pc, gas and registers, and any canonical memory or none. Rests on R301,
R302, R303. -/
def Obligations.ResetMeetsTheInvariant : Prop :=
  State.reset.Inv ∧
    ∀ (s t : State) (p : Program) (initialPC initialGas : Nat) (regs : Option (Vector Word 13)) (mem : Option Memory),
      (∀ m, mem = some m → m.wf) → s.hostReset p initialPC initialGas regs mem = .next t → t.Inv

/-- O50. A run ends: within GAS + 1 steps the status is no longer OK. For every state, run steps until the first
status other than OK and reaches it after at most GAS + 1 steps; all earlier steps end in OK. The bound counts the
last step too, which may be the one that finds no gas. Rests on R109, R111, R115. -/
def Obligations.RunEndsWithinItsGas : Prop :=
  ∀ s : State, ∃ (n : Nat) (t : State), 0 < n ∧ n ≤ s.gas.toNat + 1 ∧ run s = .next t ∧ t.status ≠ .ok ∧
    Host.Core.run core n s = .next t ∧
    ∀ k, 0 < k → k < n → ∃ u : State, Host.Core.run core k s = .next u ∧ u.status = .ok

/-- O51. GAS counts down by one for a step and by one more for a memory fault. In OK or HOST: without gas the step
ends in OOG. With gas it does not, and GAS goes down by one, or, where the step ends in PANIC with a fault address, by
two, or to 0 if only one unit was left. Rests on R44, R111, R113, R298. -/
def Obligations.EveryStepIsPaidFor : Prop :=
  ∀ s t : State, Runnable s → step s = .next t →
    (s.gas.toNat = 0 → t.status = .oog ∧ t.gas.toNat = 0) ∧
      (0 < s.gas.toNat →
        t.status ≠ .oog ∧
          (t.exitParam = none ∨ t.status = .host → t.gas.toNat = s.gas.toNat - 1) ∧
          (t.status = .panic → t.exitParam ≠ none → t.gas.toNat = s.gas.toNat - 2))

/-- O52. No step changes the program, the basic-block set or the heap ceiling. Code, mask, jump table and basic-block
set stay as reset loaded them through every step, and so does ENDHEAP. Rests on R20, R45, R48, R49, R81. -/
def Obligations.ProgramIsFixedBetweenResets : Prop :=
  ∀ s t : State, step s = .next t → t.prog = s.prog ∧ t.blocks = s.blocks ∧ t.mem.endHeap = s.mem.endHeap

/-- O53. Where pc goes: the next instruction, a basic-block start, or nowhere. From a good state in OK or HOST: a step
that ends OK leaves pc at the sequential successor or at a basic-block start, which is an instruction start; one that
ends in HOST leaves it at the successor; one that ends in HALT, PANIC or OOG leaves it where it was. Rests on R38,
R106, R113, R120, R286. -/
def Obligations.ControlLandsOnBlockStarts : Prop :=
  ∀ s t : State, s.Inv → Runnable s → step s = .next t →
    let next := (s.pc.toNat + 1 + s.prog.skip s.pc.toNat) % 2 ^ 32
    (t.status = .ok → t.pc.toNat = next ∨ (t.pc.toNat ∈ s.blocks ∧ s.prog.mask[t.pc.toNat]? = some true)) ∧
      (t.status = .host → t.pc.toNat = next) ∧
      (t.status = .halt ∨ t.status = .panic ∨ t.status = .oog → t.pc = s.pc)

/-- O54. No step changes a read-only byte, and only sbrk changes a permission. From a good state: a byte with
permission R reads after any step as before. A step whose instruction is not sbrk changes no permission, and no byte
without permission RW. Rests on R59, R65, R69, R77. -/
def Obligations.MemoryProtectionHolds : Prop :=
  ∀ s t : State, s.Inv → step s = .next t →
    (∀ a : Addr, s.mem.perm a.toNat = .readOnly → t.mem.readByte a = s.mem.readByte a) ∧
      ((∀ rD rA, (decode s.prog s.pc).1 ≠ .sbrk rD rA) → ∀ a : Addr,
        t.mem.perm a.toNat = s.mem.perm a.toNat ∧
          (s.mem.perm a.toNat ≠ .readWrite → t.mem.readByte a = s.mem.readByte a))

/-- O55. No operation reads or writes pc, GAS, STATUS, EXIT_PARAM, the code or the mask. Every instruction's operation
completes in every state, leaves pc, GAS, STATUS, EXIT_PARAM, the program and the basic-block set unchanged, and does
the same in a state that differs only in pc, GAS, STATUS, EXIT_PARAM, code, mask and the model's own flag that a run
has begun (log 8). Rests on R116, R117. -/
def Obligations.OperationsReadAndWriteNoDriverState : Prop :=
  ∀ (i : Instr) (s : State) (pc : Addr) (gas : Word) (status : Status) (exitParam : Option (BitVec 32))
    (started : Bool) (code : List Byte) (mask : List Bool),
    ∃ t, exec i s = .next t ∧ SameDriver s t ∧ SameProgram s t ∧
      exec i { s with
          pc := pc
          gas := gas
          status := status
          exitParam := exitParam
          started := started
          prog := { s.prog with code := code, mask := mask } } =
        .next { t with
          pc := pc
          gas := gas
          status := status
          exitParam := exitParam
          started := started
          prog := { t.prog with code := code, mask := mask } }

/-- O56. The values the spec gives the machine after a reset without registers and memory. Every register 0, STATUS
OK, no exit parameter, an empty result record, no pages, SBRK = VSBRK = 0 and ENDHEAP = 2^32, so that no byte can be
read. The program, pc and gas are arguments of a reset, and what State.reset takes for them is the model's choice
(logs 1 to 3); nothing is said of them here. Rests on R36, R42, R43, R50, R52, R74, R301. -/
def Obligations.ResetValues : Prop :=
  (∀ r : Reg, State.reset.reg r = 0#64) ∧ State.reset.status = .ok ∧ State.reset.exitParam = none ∧
    State.reset.result = { kind := none, nextPc := none } ∧ State.reset.mem.pages = [] ∧ State.reset.mem.sbrk = 0 ∧
    State.reset.mem.vsbrk = 0 ∧ State.reset.mem.endHeap = 2 ^ 32 ∧
    ∀ a : Addr, State.reset.mem.readByte a = none

/-- O57. reset loads program, pc, gas, registers and memory, in every status. With a program that has one mask bit for
each of fewer than 2^32 code bytes and gas that fits the counter: reset completes from every state with all the values
of the reset rule, registers and memory copied where they are supplied and zeroed where they are not. A mask of
another length is refused. Formalises R301, R302. -/
def Obligations.HostResetLoadsItsArguments : Prop :=
  ∀ (s : State) (p : Program) (initialPC initialGas : Nat) (regs : Option (Vector Word 13)) (mem : Option Memory),
    (programWf p → initialGas ≤ 2 ^ 64 - 1 →
      ∃ t, s.hostReset p initialPC initialGas regs mem = .next t ∧ t.prog = p ∧ t.blocks = p.basicBlocks ∧
        t.pc.toNat = initialPC % 2 ^ 32 ∧ t.gas.toNat = initialGas ∧ t.status = .ok ∧ t.exitParam = none ∧
        t.result = { kind := none, nextPc := none } ∧
        (∀ rs, regs = some rs → t.regs = rs) ∧ (regs = none → ∀ r, t.reg r = 0#64) ∧
        (∀ m, mem = some m → t.mem = m) ∧ (mem = none → t.mem = Memory.fresh)) ∧
      (p.mask.length ≠ p.code.length →
        s.hostReset p initialPC initialGas regs mem = .refused .maskLength)

/-- O58. The register views and the byte window, with their frame. A 32-bit read takes the low half, unsigned or
signed; setU64 and setI64 write all 64 bits, setU32 clears the upper half and setI32 fills it with the sign; byte k of
the window is bits 8k+7..8k, and writing it changes those bits and no other. Each write leaves every other register,
memory, pc, GAS, STATUS, EXIT_PARAM and the program unchanged. setI64 of a number outside [-2^63, 2^63) is reduced
modulo 2^64, which is the model's choice (log 19). Rests on R32, R33, R34, R35, 10_state.md section 1. -/
def Obligations.RegisterViewsAndByteWindow : Prop :=
  ∀ (s : State) (i : Reg) (w : Word) (v : Int) (u : BitVec 32) (b : Byte),
    (s.getU32 i).toNat = (s.reg i).toNat % 2 ^ 32 ∧ s.getI64 i = (s.reg i).toInt ∧
      s.getI32 i = Int.bmod (s.reg i).toInt (2 ^ 32) ∧
      ((s.setReg i w).reg i = w ∧ SameRegsBut s (s.setReg i w) i ∧ SameButRegs s (s.setReg i w)) ∧
      (((s.setI64 i v).reg i).toInt = Int.bmod v (2 ^ 64) ∧ SameRegsBut s (s.setI64 i v) i ∧
        SameButRegs s (s.setI64 i v)) ∧
      (((s.setU32 i u).reg i).toNat = u.toNat ∧ SameRegsBut s (s.setU32 i u) i ∧ SameButRegs s (s.setU32 i u)) ∧
      (((s.setI32 i u).reg i).toInt = u.toInt ∧ SameRegsBut s (s.setI32 i u) i ∧ SameButRegs s (s.setI32 i u)) ∧
      (∀ k, k < 8 → (s.regBytes i 8)[k]? = some (BitVec.ofNat 8 ((s.reg i).toNat / 256 ^ k))) ∧
      ∀ k, k < 8 →
        (∀ j, j < 64 →
          ((s.setRegByte i k b).reg i).getLsbD j = if j / 8 = k then b.getLsbD (j % 8) else (s.reg i).getLsbD j) ∧
          SameRegsBut s (s.setRegByte i k b) i ∧ SameButRegs s (s.setRegByte i k b)

/-- O59. add, sub and get of the gas counter. get answers GAS; sub(c) with c above GAS sets it to 0 and reports the
underflow, and otherwise takes c exactly, down to 0; add(c) adds c exactly where the sum fits the counter. Nothing
else changes. Formalises R297. -/
def Obligations.GasCounterOperations : Prop :=
  ∀ (s : State) (c : Word),
    s.getGas = s.gas ∧
      (s.gas.toNat < c.toNat → s.gasTake c = ({ s with gas := 0#64 }, true)) ∧
      (c.toNat ≤ s.gas.toNat →
        ∃ t, s.gasTake c = (t, false) ∧ t.gas.toNat = s.gas.toNat - c.toNat ∧ t = { s with gas := t.gas }) ∧
      (s.gas.toNat + c.toNat ≤ 2 ^ 64 - 1 →
        ∃ t, s.gasAdd c = .next t ∧ t.gas.toNat = s.gas.toNat + c.toNat ∧ t = { s with gas := t.gas })

/-- O60. What the host reads and writes through loadInto and storeFrom, and that only a run in progress refuses it. In
a HOST pause, before the first step after a reset and after a run, loadInto and storeFrom complete. Where every byte
of the range has permission RW storeFrom stores them all, in order, and answers no fault. Otherwise it answers the
first byte without permission RW as a fault, with the segments before that byte's page stored. Every other byte reads
as before; no permission, no register, and neither pc, GAS, STATUS nor EXIT_PARAM changes. loadInto answers the bytes
of the range in order, or the bytes before the first one without read permission and that one's address as a fault,
and changes nothing. isWriteable is answered too. While a run is in progress, STATUS OK with a step begun since reset,
loadInto, storeFrom and isWriteable are refused: that reading of duty 3 is the model's (log 8). A step that ends OK
leaves a run in progress and a reset leaves none. Rests on R53, R60, R64, R65, R67, R288, R289, R293. -/
def Obligations.HostMemoryAccessLeavesTheRest : Prop :=
  ∀ (s : State) (a : Addr) (bs : List Byte),
    (s.status ≠ .ok ∨ s.started = false →
      ∃ (t : State) (f : Option PageFault), s.hostStore a bs = .next (t, f) ∧ SameRegs s t ∧ SameDriver s t ∧
        SameProgram s t ∧ SameLayout s t ∧ t.result = s.result ∧
        (∀ b : Addr, s.mem.perm b.toNat ≠ .readWrite → t.mem.readByte b = s.mem.readByte b) ∧
        (Writeable s.mem a bs.length → f = none ∧ BytesStored s t a bs) ∧
        ∀ k, FirstUnwriteable s.mem a bs.length k →
          f = some ⟨byteAddr a k⟩ ∧ BytesStored s t a (bs.take (bytesBeforePage a k))) ∧
      (s.status ≠ .ok ∨ s.started = false →
        ∀ n, s.hostIsWriteable a n = .next (s.mem.isWriteable a n) ∧
          (Readable s.mem a n → ∃ bytes, s.hostLoad n a = .next (bytes, none) ∧ BytesRead s a n bytes) ∧
          ∀ k, FirstUnreadable s.mem a n k →
            ∃ bytes, s.hostLoad n a = .next (bytes, some ⟨byteAddr a k⟩) ∧ BytesRead s a k bytes) ∧
      (s.status = .ok → s.started = true → ∀ n,
        s.hostStore a bs = .refused .hostAccessWhileRunning ∧ s.hostLoad n a = .refused .hostAccessWhileRunning ∧
          s.hostIsWriteable a n = .refused .hostAccessWhileRunning) ∧
      (∀ t : State, step s = .next t → t.status = .ok → t.started = true) ∧
      ∀ (p : Program) (initialPC initialGas : Nat) (regs : Option (Vector Word 13)) (mem : Option Memory) (t : State),
        s.hostReset p initialPC initialGas regs mem = .next t → t.started = false
end

