-- ==== Sys2Proof/Laws/State.lean ====
section
/-! SUPPORT. The small lemmas of the state's accessors and updates: one for each field and update, so that no later
proof unfolds a record update. -/

namespace Sys2Proof.Machine

/-! ### The register file -/

@[simp] theorem reg_setReg (s : State) (r q : Reg) (v : Word) :
    (s.setReg r v).reg q = if q = r then v else s.reg q := by
  unfold State.reg State.setReg
  simp [Vector.getElem_set, Fin.ext_iff, eq_comm]

theorem reg_setReg_self (s : State) (r : Reg) (v : Word) : (s.setReg r v).reg r = v := by simp

theorem reg_setReg_other (s : State) {r q : Reg} (v : Word) (h : q ≠ r) : (s.setReg r v).reg q = s.reg q := by
  simp [h]

@[simp] theorem setReg_pc (s : State) (r : Reg) (v : Word) : (s.setReg r v).pc = s.pc := rfl
@[simp] theorem setReg_gas (s : State) (r : Reg) (v : Word) : (s.setReg r v).gas = s.gas := rfl
@[simp] theorem setReg_status (s : State) (r : Reg) (v : Word) : (s.setReg r v).status = s.status := rfl
@[simp] theorem setReg_exitParam (s : State) (r : Reg) (v : Word) : (s.setReg r v).exitParam = s.exitParam := rfl
@[simp] theorem setReg_mem (s : State) (r : Reg) (v : Word) : (s.setReg r v).mem = s.mem := rfl
@[simp] theorem setReg_prog (s : State) (r : Reg) (v : Word) : (s.setReg r v).prog = s.prog := rfl
@[simp] theorem setReg_blocks (s : State) (r : Reg) (v : Word) : (s.setReg r v).blocks = s.blocks := rfl
@[simp] theorem setReg_result (s : State) (r : Reg) (v : Word) : (s.setReg r v).result = s.result := rfl
@[simp] theorem setReg_freeCount (s : State) (r : Reg) (v : Word) : (s.setReg r v).freeCount = s.freeCount := rfl
@[simp] theorem setReg_started (s : State) (r : Reg) (v : Word) : (s.setReg r v).started = s.started := rfl

/-! ### The memory of a state -/

@[simp] theorem withMem_reg (s : State) (m : Memory) (q : Reg) : ({ s with mem := m } : State).reg q = s.reg q := rfl

/-! ### The result record -/

@[simp] theorem raise_reg (s : State) (k : ExitKind) (q : Reg) : (s.raise k).reg q = s.reg q := rfl
@[simp] theorem raise_pc (s : State) (k : ExitKind) : (s.raise k).pc = s.pc := rfl
@[simp] theorem raise_gas (s : State) (k : ExitKind) : (s.raise k).gas = s.gas := rfl
@[simp] theorem raise_status (s : State) (k : ExitKind) : (s.raise k).status = s.status := rfl
@[simp] theorem raise_exitParam (s : State) (k : ExitKind) : (s.raise k).exitParam = s.exitParam := rfl
@[simp] theorem raise_mem (s : State) (k : ExitKind) : (s.raise k).mem = s.mem := rfl
@[simp] theorem raise_prog (s : State) (k : ExitKind) : (s.raise k).prog = s.prog := rfl
@[simp] theorem raise_blocks (s : State) (k : ExitKind) : (s.raise k).blocks = s.blocks := rfl
@[simp] theorem raise_result (s : State) (k : ExitKind) :
    (s.raise k).result = { kind := some k, nextPc := none } := rfl
@[simp] theorem raise_freeCount (s : State) (k : ExitKind) : (s.raise k).freeCount = s.freeCount := rfl
@[simp] theorem raise_started (s : State) (k : ExitKind) : (s.raise k).started = s.started := rfl

@[simp] theorem jumpTo_reg (s : State) (t : Addr) (q : Reg) : (s.jumpTo t).reg q = s.reg q := rfl
@[simp] theorem jumpTo_pc (s : State) (t : Addr) : (s.jumpTo t).pc = s.pc := rfl
@[simp] theorem jumpTo_gas (s : State) (t : Addr) : (s.jumpTo t).gas = s.gas := rfl
@[simp] theorem jumpTo_status (s : State) (t : Addr) : (s.jumpTo t).status = s.status := rfl
@[simp] theorem jumpTo_exitParam (s : State) (t : Addr) : (s.jumpTo t).exitParam = s.exitParam := rfl
@[simp] theorem jumpTo_mem (s : State) (t : Addr) : (s.jumpTo t).mem = s.mem := rfl
@[simp] theorem jumpTo_prog (s : State) (t : Addr) : (s.jumpTo t).prog = s.prog := rfl
@[simp] theorem jumpTo_blocks (s : State) (t : Addr) : (s.jumpTo t).blocks = s.blocks := rfl
@[simp] theorem jumpTo_result (s : State) (t : Addr) : (s.jumpTo t).result = { kind := none, nextPc := some t } := rfl
@[simp] theorem jumpTo_freeCount (s : State) (t : Addr) : (s.jumpTo t).freeCount = s.freeCount := rfl
@[simp] theorem jumpTo_started (s : State) (t : Addr) : (s.jumpTo t).started = s.started := rfl

@[simp] theorem clearResult_reg (s : State) (q : Reg) : s.clearResult.reg q = s.reg q := rfl
@[simp] theorem clearResult_pc (s : State) : s.clearResult.pc = s.pc := rfl
@[simp] theorem clearResult_gas (s : State) : s.clearResult.gas = s.gas := rfl
@[simp] theorem clearResult_status (s : State) : s.clearResult.status = s.status := rfl
@[simp] theorem clearResult_exitParam (s : State) : s.clearResult.exitParam = s.exitParam := rfl
@[simp] theorem clearResult_mem (s : State) : s.clearResult.mem = s.mem := rfl
@[simp] theorem clearResult_prog (s : State) : s.clearResult.prog = s.prog := rfl
@[simp] theorem clearResult_blocks (s : State) : s.clearResult.blocks = s.blocks := rfl
@[simp] theorem clearResult_result (s : State) : s.clearResult.result = OpResult.empty := rfl
@[simp] theorem clearResult_freeCount (s : State) : s.clearResult.freeCount = s.freeCount := rfl
@[simp] theorem clearResult_started (s : State) : s.clearResult.started = s.started := rfl

/-! ### Free values -/

@[simp] theorem setRegFree_reg (s : State) (r q : Reg) :
    (s.setRegFree r).reg q = if q = r then Config.freeValue s.freeCount else s.reg q := by
  show (s.setReg r (Config.freeValue s.freeCount)).reg q = _
  simp
@[simp] theorem setRegFree_pc (s : State) (r : Reg) : (s.setRegFree r).pc = s.pc := rfl
@[simp] theorem setRegFree_gas (s : State) (r : Reg) : (s.setRegFree r).gas = s.gas := rfl
@[simp] theorem setRegFree_status (s : State) (r : Reg) : (s.setRegFree r).status = s.status := rfl
@[simp] theorem setRegFree_exitParam (s : State) (r : Reg) : (s.setRegFree r).exitParam = s.exitParam := rfl
@[simp] theorem setRegFree_mem (s : State) (r : Reg) : (s.setRegFree r).mem = s.mem := rfl
@[simp] theorem setRegFree_prog (s : State) (r : Reg) : (s.setRegFree r).prog = s.prog := rfl
@[simp] theorem setRegFree_blocks (s : State) (r : Reg) : (s.setRegFree r).blocks = s.blocks := rfl
@[simp] theorem setRegFree_result (s : State) (r : Reg) : (s.setRegFree r).result = s.result := rfl
@[simp] theorem setRegFree_started (s : State) (r : Reg) : (s.setRegFree r).started = s.started := rfl
@[simp] theorem setRegFree_freeCount (s : State) (r : Reg) : (s.setRegFree r).freeCount = s.freeCount + 1 := rfl

/-! ### The start of a step -/

@[simp] theorem resume_reg (s : State) (q : Reg) : s.resume.reg q = s.reg q := rfl
@[simp] theorem resume_pc (s : State) : s.resume.pc = s.pc := rfl
@[simp] theorem resume_gas (s : State) : s.resume.gas = s.gas := rfl
@[simp] theorem resume_status (s : State) : s.resume.status = .ok := rfl
@[simp] theorem resume_exitParam (s : State) : s.resume.exitParam = none := rfl
@[simp] theorem resume_mem (s : State) : s.resume.mem = s.mem := rfl
@[simp] theorem resume_prog (s : State) : s.resume.prog = s.prog := rfl
@[simp] theorem resume_blocks (s : State) : s.resume.blocks = s.blocks := rfl
@[simp] theorem resume_result (s : State) : s.resume.result = s.result := rfl
@[simp] theorem resume_freeCount (s : State) : s.resume.freeCount = s.freeCount := rfl
@[simp] theorem resume_started (s : State) : s.resume.started = true := rfl

@[simp] theorem outOfGas_reg (s : State) (q : Reg) : s.outOfGas.reg q = s.reg q := rfl
@[simp] theorem outOfGas_pc (s : State) : s.outOfGas.pc = s.pc := rfl
@[simp] theorem outOfGas_gas (s : State) : s.outOfGas.gas = s.gas := rfl
@[simp] theorem outOfGas_status (s : State) : s.outOfGas.status = .oog := rfl
@[simp] theorem outOfGas_exitParam (s : State) : s.outOfGas.exitParam = s.exitParam := rfl
@[simp] theorem outOfGas_mem (s : State) : s.outOfGas.mem = s.mem := rfl
@[simp] theorem outOfGas_prog (s : State) : s.outOfGas.prog = s.prog := rfl
@[simp] theorem outOfGas_blocks (s : State) : s.outOfGas.blocks = s.blocks := rfl
@[simp] theorem outOfGas_result (s : State) : s.outOfGas.result = s.result := rfl
@[simp] theorem outOfGas_freeCount (s : State) : s.outOfGas.freeCount = s.freeCount := rfl
@[simp] theorem outOfGas_started (s : State) : s.outOfGas.started = s.started := rfl

/-! ### Content bytes of a memory -/

@[simp] theorem setByte_pages (m : Memory) (a : Nat) (v : Byte) : (m.setByte a v).pages = m.pages := rfl
@[simp] theorem setByte_cells (m : Memory) (a : Nat) (v : Byte) : (m.setByte a v).cells = writeCell m.cells a v := rfl
@[simp] theorem setByte_sbrk (m : Memory) (a : Nat) (v : Byte) : (m.setByte a v).sbrk = m.sbrk := rfl
@[simp] theorem setByte_vsbrk (m : Memory) (a : Nat) (v : Byte) : (m.setByte a v).vsbrk = m.vsbrk := rfl
@[simp] theorem setByte_endHeap (m : Memory) (a : Nat) (v : Byte) : (m.setByte a v).endHeap = m.endHeap := rfl
@[simp] theorem setByte_pagePerm (m : Memory) (a b : Nat) (v : Byte) : (m.setByte a v).pagePerm b = m.pagePerm b := rfl
@[simp] theorem setByte_perm (m : Memory) (a b : Nat) (v : Byte) : (m.setByte a v).perm b = m.perm b := rfl

end Sys2Proof.Machine
end

