-- ==== Sys2Proof/Laws/Memory.lean ====
section
/-! SUPPORT. What the memory operations do: read after write, permissions, the access primitives, heap growth, and that
each keeps the canonical form `Memory.wf`. -/

namespace Sys2Proof.Machine

/-! ### Content bytes -/

theorem readCell_insertCell (a b : Nat) (v : Byte) (cs : List Host.Cell) (h : ∀ c ∈ cs, c.1 ≠ a) :
    readCell (insertCell a v cs) b = if b = a then v else readCell cs b := by
  induction cs with
  | nil => simp [insertCell, readCell, eq_comm]
  | cons c cs ih =>
    have hc : c.1 ≠ a := h c (by simp)
    have ih := ih (fun d hd => h d (by simp [hd]))
    unfold insertCell
    split
    · simp [readCell, eq_comm]
    · simp only [readCell, ih]
      by_cases hb : b = a
      · subst hb; simp [hc]
      · simp [hb]

theorem readCell_filter (a b : Nat) (cs : List Host.Cell) :
    readCell (cs.filter (fun c => c.1 != a)) b = if b = a then unlistedByte else readCell cs b := by
  induction cs with
  | nil => simp [readCell]
  | cons c cs ih =>
    by_cases hc : c.1 = a
    · have : ((c.1 != a) = true) = False := by simp [hc]
      simp only [List.filter_cons, this, if_false, ih, readCell]
      split
      · rfl
      · rename_i hb; simp [hc, Ne.symm hb]
    · have : ((c.1 != a) = true) = True := by simp [hc]
      simp only [List.filter_cons, this, if_true, ih, readCell]
      by_cases hb : b = a
      · subst hb; simp [hc]
      · simp [hb]

/-- Read after write, for one content byte and any list. -/
theorem readCell_writeCell (cs : List Host.Cell) (a b : Nat) (v : Byte) :
    readCell (writeCell cs a v) b = if b = a then v else readCell cs b := by
  unfold writeCell
  split
  · rename_i h; rw [readCell_filter]; simp [h]
  · rw [readCell_insertCell _ _ _ _ (by simp), readCell_filter]
    by_cases hb : b = a <;> simp [hb]

theorem mem_insertCell {a : Nat} {v : Byte} {cs : List Host.Cell} {c : Host.Cell} :
    c ∈ insertCell a v cs ↔ c = (a, v) ∨ c ∈ cs := by
  induction cs with
  | nil => simp [insertCell]
  | cons d cs ih =>
    unfold insertCell
    split
    · simp
    · simp [ih]; tauto

theorem insertCell_rising (a : Nat) (v : Byte) (cs : List Host.Cell) (h : ∀ c ∈ cs, c.1 ≠ a)
    (hs : cs.Pairwise (fun c d => c.1 < d.1)) : (insertCell a v cs).Pairwise (fun c d => c.1 < d.1) := by
  induction cs with
  | nil => simp [insertCell]
  | cons d cs ih =>
    have hd := List.pairwise_cons.1 hs
    have hda : d.1 ≠ a := h d (by simp)
    unfold insertCell
    split
    · rename_i hlt
      refine List.pairwise_cons.2 ⟨fun c hc => ?_, hs⟩
      rcases List.mem_cons.1 hc with rfl | hc
      · exact hlt
      · exact Nat.lt_trans hlt (hd.1 c hc)
    · rename_i hlt
      refine List.pairwise_cons.2 ⟨fun c hc => ?_, ih (fun c hc => h c (by simp [hc])) hd.2⟩
      rcases mem_insertCell.1 hc with rfl | hc
      · show d.1 < a; omega
      · exact hd.1 c hc

theorem writeCell_canonical (cs : List Host.Cell) (a : Nat) (v : Byte) (h : cellsCanonical cs) :
    cellsCanonical (writeCell cs a v) := by
  have hf : (cs.filter (fun c => c.1 != a)).Pairwise (fun c d => c.1 < d.1) := h.1.filter _
  have hz : ∀ c ∈ cs.filter (fun c => c.1 != a), c.2 ≠ unlistedByte :=
    fun c hc => h.2 c (List.mem_filter.1 hc).1
  unfold writeCell
  split
  · exact ⟨hf, hz⟩
  · rename_i hv
    refine ⟨insertCell_rising _ _ _ (by simp) hf, fun c hc => ?_⟩
    rcases mem_insertCell.1 hc with rfl | hc
    · exact hv
    · exact hz c hc

theorem mem_writeCell {cs : List Host.Cell} {a : Nat} {v : Byte} {c : Host.Cell} (h : c ∈ writeCell cs a v) :
    c.1 = a ∨ c ∈ cs := by
  unfold writeCell at h
  split at h
  · exact .inr (List.mem_filter.1 h).1
  · rcases mem_insertCell.1 h with rfl | h
    · exact .inl rfl
    · exact .inr (List.mem_filter.1 h).1

/-! ### One content byte of a memory -/

theorem val_setByte (m : Memory) (a b : Nat) (v : Byte) :
    (m.setByte a v).val b = if b = a then v else m.val b := readCell_writeCell _ _ _ _

theorem perm_ne_of_gap {m : Memory} {a : Nat} (h : m.perm a ≠ .noAccess) :
    m.pagePerm a ≠ .noAccess ∧ m.perm a = m.pagePerm a := by
  unfold Memory.perm at *
  split at h
  · exact absurd rfl h
  · rename_i hg; exact ⟨h, by simp [hg]⟩

theorem setByte_wf {m : Memory} {a : Nat} {v : Byte} (h : m.wf) (ha : m.pagePerm a ≠ .noAccess) :
    (m.setByte a v).wf := by
  obtain ⟨hc, hp, hs, he, hb⟩ := h
  refine ⟨writeCell_canonical _ _ _ hc, hp, hs, he, fun c hm => ?_⟩
  rcases mem_writeCell hm with hca | hm
  · rw [hca]; exact ha
  · exact hb c hm

/-! ### Consecutive addresses -/

@[simp] theorem byteAddr_zero (a : Addr) : byteAddr a 0 = a := by simp [byteAddr]

theorem byteAddr_succ (a : Addr) (k : Nat) : byteAddr (a + 1) k = byteAddr a (k + 1) := by
  apply BitVec.eq_of_toNat_eq
  simp [byteAddr, BitVec.toNat_add]
  omega

/-- `byteAddr_succ` in the spelling that `simp` leaves. -/
theorem byteAddr_succ' (a : Addr) (k : Nat) : byteAddr (a + 1#32) k = byteAddr a (k + 1) := byteAddr_succ a k

theorem byteAddr_add (a : Addr) (j k : Nat) : byteAddr (byteAddr a j) k = byteAddr a (j + k) := by
  apply BitVec.eq_of_toNat_eq
  simp [byteAddr, BitVec.toNat_add]
  omega

theorem byteAddr_inj {a : Addr} {j k : Nat} (hj : j < 2 ^ 32) (hk : k < 2 ^ 32) (h : byteAddr a j = byteAddr a k) :
    j = k := by
  have := congrArg BitVec.toNat h
  simp [byteAddr, BitVec.toNat_add] at this
  omega

/-! ### Loads -/

theorem loadInto_of_readable (m : Memory) : ∀ (n : Nat) (a : Addr), Readable m a n →
    m.loadInto n a = ((List.range n).map (fun k => m.val (byteAddr a k).toNat), none) := by
  intro n
  induction n with
  | zero => intro a _; simp [Memory.loadInto]
  | succ n ih =>
    intro a h
    have h0 : m.perm a.toNat ≠ .noAccess := by simpa using h 0 (by omega)
    have hr : Readable m (a + 1) n := fun k hk => by rw [byteAddr_succ]; exact h (k + 1) (by omega)
    rw [Memory.loadInto, if_neg h0, ih _ hr, List.range_succ_eq_map]
    simp [byteAddr_succ', Function.comp_def]

theorem loadInto_of_unreadable (m : Memory) : ∀ (n k : Nat) (a : Addr), FirstUnreadable m a n k →
    m.loadInto n a = ((List.range k).map (fun j => m.val (byteAddr a j).toNat), some ⟨byteAddr a k⟩) := by
  intro n
  induction n with
  | zero => intro k a h; exact absurd h.1 (by omega)
  | succ n ih =>
    intro k a ⟨hk, hr, hf⟩
    cases k with
    | zero => simp at hf; simp [Memory.loadInto, hf]
    | succ k =>
      have h0 : m.perm a.toNat ≠ .noAccess := by simpa using hr 0 (by omega)
      have := ih k (a + 1) ⟨by omega, fun j hj => by rw [byteAddr_succ]; exact hr (j + 1) (by omega),
        by rw [byteAddr_succ]; exact hf⟩
      rw [Memory.loadInto, if_neg h0, this, List.range_succ_eq_map]
      simp [byteAddr_succ', Function.comp_def]

/-- A span is readable or has a first byte that is not. -/
theorem readable_or_first (m : Memory) (a : Addr) (n : Nat) : Readable m a n ∨ ∃ k, FirstUnreadable m a n k := by
  induction n with
  | zero => exact .inl (fun k hk => absurd hk (by omega))
  | succ n ih =>
    rcases ih with h | ⟨k, hk, h⟩
    · by_cases hp : m.perm (byteAddr a n).toNat = .noAccess
      · exact .inr ⟨n, by omega, h, hp⟩
      · refine .inl (fun k hk => ?_)
        rcases Nat.lt_succ_iff_lt_or_eq.1 hk with hk | rfl
        · exact h k hk
        · exact hp
    · exact .inr ⟨k, by omega, h⟩

theorem leValue_range (f : Nat → Byte) (n : Nat) :
    leValue ((List.range n).map f) = ((List.range n).map (fun k => (f k).toNat * 256 ^ k)).sum := by
  induction n generalizing f with
  | zero => simp [leValue]
  | succ n ih =>
    rw [List.range_succ_eq_map]
    simp only [List.map_cons, List.map_map, leValue, List.sum_cons]
    have := ih (fun k => f (k + 1))
    simp only [Function.comp_def, Nat.succ_eq_add_one] at *
    rw [this, ← List.sum_map_mul_left]
    simp only [pow_zero, mul_one, pow_succ]
    congr 2
    refine List.map_congr_left (fun k _ => ?_)
    ring

theorem memRead_of_readable {m : Memory} {a : Addr} {n : Nat} (h : Readable m a n) :
    m.memRead a n = .ok (BitVec.ofNat 64 (spanValue m a n)) := by
  simp only [Memory.memRead, loadInto_of_readable m n a h, leValue_range, spanValue]

theorem memRead_of_unreadable {m : Memory} {a : Addr} {n k : Nat} (h : FirstUnreadable m a n k) :
    m.memRead a n = .error ⟨byteAddr a k⟩ := by
  simp [Memory.memRead, loadInto_of_unreadable m n k a h]

/-! ### Stores -/

theorem firstNotWriteable_of_writeable (m : Memory) : ∀ (n : Nat) (a : Addr), Writeable m a n →
    m.firstNotWriteable n a = none := by
  intro n
  induction n with
  | zero => intro a _; rfl
  | succ n ih =>
    intro a h
    have h0 : m.perm a.toNat = .readWrite := by simpa using h 0 (by omega)
    rw [Memory.firstNotWriteable, if_pos h0]
    exact ih _ (fun k hk => by rw [byteAddr_succ]; exact h (k + 1) (by omega))

theorem firstNotWriteable_of_unwriteable (m : Memory) : ∀ (n k : Nat) (a : Addr), FirstUnwriteable m a n k →
    m.firstNotWriteable n a = some (byteAddr a k) := by
  intro n
  induction n with
  | zero => intro k a h; exact absurd h.1 (by omega)
  | succ n ih =>
    intro k a ⟨hk, hw, hf⟩
    cases k with
    | zero => simp at hf; simp [Memory.firstNotWriteable, hf]
    | succ k =>
      have h0 : m.perm a.toNat = .readWrite := by simpa using hw 0 (by omega)
      rw [Memory.firstNotWriteable, if_pos h0]
      rw [ih k (a + 1) ⟨by omega, fun j hj => by rw [byteAddr_succ]; exact hw (j + 1) (by omega),
        by rw [byteAddr_succ]; exact hf⟩, byteAddr_succ]

/-- A span is writeable or has a first byte that is not. -/
theorem writeable_or_first (m : Memory) (a : Addr) (n : Nat) : Writeable m a n ∨ ∃ k, FirstUnwriteable m a n k := by
  induction n with
  | zero => exact .inl (fun k hk => absurd hk (by omega))
  | succ n ih =>
    rcases ih with h | ⟨k, hk, h⟩
    · by_cases hp : m.perm (byteAddr a n).toNat = .readWrite
      · refine .inl (fun k hk => ?_)
        rcases Nat.lt_succ_iff_lt_or_eq.1 hk with hk | rfl
        · exact h k hk
        · exact hp
      · exact .inr ⟨n, by omega, h, hp⟩
    · exact .inr ⟨k, by omega, h⟩

@[simp] theorem writeBytes_nil (m : Memory) (a : Addr) : m.writeBytes a [] = m := rfl

theorem writeBytes_layout (m : Memory) (a : Addr) (bs : List Byte) :
    (m.writeBytes a bs).pages = m.pages ∧ (m.writeBytes a bs).sbrk = m.sbrk ∧
      (m.writeBytes a bs).vsbrk = m.vsbrk ∧ (m.writeBytes a bs).endHeap = m.endHeap := by
  induction bs generalizing m a with
  | nil => simp
  | cons b bs ih => simpa [Memory.writeBytes] using ih (m.setByte a.toNat b) (a + 1)

@[simp] theorem writeBytes_perm (m : Memory) (a : Addr) (bs : List Byte) (b : Nat) :
    (m.writeBytes a bs).perm b = m.perm b := by
  induction bs generalizing m a with
  | nil => simp
  | cons c bs ih => simp [Memory.writeBytes, ih]

/-- Outside the written bytes the content is as before. -/
theorem val_writeBytes_other (m : Memory) (a : Addr) (bs : List Byte) (b : Addr)
    (h : ∀ k, k < bs.length → b ≠ byteAddr a k) : (m.writeBytes a bs).val b.toNat = m.val b.toNat := by
  induction bs generalizing m a with
  | nil => simp
  | cons c bs ih =>
    have h0 : b ≠ a := by simpa using h 0 (by simp)
    have hn : b.toNat ≠ a.toNat := fun e => h0 (BitVec.eq_of_toNat_eq e)
    rw [Memory.writeBytes, ih _ _ (fun k hk => by rw [byteAddr_succ]; exact h (k + 1) (by simpa using hk)),
      val_setByte, if_neg hn]

/-- A written byte that no later one overwrites reads back. -/
theorem val_writeBytes_last (m : Memory) (a : Addr) (bs : List Byte) (k : Nat) (hk : k < bs.length)
    (hl : ∀ j, k < j → j < bs.length → byteAddr a j ≠ byteAddr a k) :
    (m.writeBytes a bs).val (byteAddr a k).toNat = bs.getD k 0 := by
  induction bs generalizing m a k with
  | nil => simp at hk
  | cons c bs ih =>
    simp only [List.length_cons] at hl hk
    cases k with
    | zero =>
      rw [Memory.writeBytes, byteAddr_zero, val_writeBytes_other, val_setByte]
      · simp
      · intro j hj e
        rw [byteAddr_succ] at e
        exact hl (j + 1) (by omega) (by omega) (by simpa using e.symm)
    | succ k =>
      rw [Memory.writeBytes, ← byteAddr_succ, ih _ _ _ (by omega) (fun j h1 h2 => ?_)]
      · simp
      · rw [byteAddr_succ, byteAddr_succ]
        exact hl (j + 1) (by omega) (by omega)

/-- The written bytes read back, in a span no longer than the address space. -/
theorem val_writeBytes (m : Memory) (a : Addr) (bs : List Byte) (hl : bs.length ≤ 2 ^ 32) (k : Nat)
    (hk : k < bs.length) : (m.writeBytes a bs).val (byteAddr a k).toNat = bs.getD k 0 :=
  val_writeBytes_last m a bs k hk (fun j h1 h2 e => by
    have := byteAddr_inj (a := a) (by omega) (by omega) e
    omega)

theorem writeBytes_wf {m : Memory} {a : Addr} {bs : List Byte} (h : m.wf) (hw : Writeable m a bs.length) :
    (m.writeBytes a bs).wf := by
  induction bs generalizing m a with
  | nil => exact h
  | cons b bs ih =>
    have h0 : m.perm a.toNat = .readWrite := by simpa using hw 0 (by simp)
    have hp : m.pagePerm a.toNat ≠ .noAccess := (perm_ne_of_gap (by rw [h0]; decide)).1
    refine ih (setByte_wf h hp) (fun k hk => ?_)
    rw [byteAddr_succ]
    exact hw (k + 1) (by simpa using hk)

theorem writeBytes_append (m : Memory) (a : Addr) (bs cs : List Byte) :
    m.writeBytes a (bs ++ cs) = (m.writeBytes a bs).writeBytes (byteAddr a bs.length) cs := by
  induction bs generalizing m a with
  | nil => simp
  | cons b bs ih => simp [Memory.writeBytes, ih, byteAddr_succ']

theorem segmentLength_le (a : Addr) (len : Nat) : segmentLength a len ≤ len := Nat.min_le_left _ _

theorem segmentLength_pos (a : Addr) (len : Nat) (h : 0 < len) : 0 < segmentLength a len := by
  have := Nat.mod_lt a.toNat (y := Config.pageSize) (by decide)
  unfold segmentLength pageOffset
  omega

/-- A store all of whose bytes are writeable writes them all. -/
theorem storeSegments_of_writeable : ∀ (fuel : Nat) (m : Memory) (a : Addr) (bs : List Byte), bs.length ≤ fuel →
    Writeable m a bs.length → Memory.storeSegments fuel m a bs = (m.writeBytes a bs, none) := by
  intro fuel
  induction fuel with
  | zero => intro m a bs hl _; simp [Memory.storeSegments, List.length_eq_zero_iff.1 (Nat.le_zero.1 hl)]
  | succ fuel ih =>
    intro m a bs hl hw
    rcases Nat.eq_zero_or_pos bs.length with h0 | hpos
    · have hb := List.length_eq_zero_iff.1 h0
      subst hb
      have hseg : segmentLength a 0 = 0 := Nat.le_zero.1 (segmentLength_le a 0)
      simp only [Memory.storeSegments, List.length_nil, hseg, Memory.firstNotWriteable, List.take_nil, List.drop_nil,
        writeBytes_nil]
      rw [ih _ _ _ (by simp) (fun k hk => absurd hk (by simp))]
      rfl
    · have hn := segmentLength_le a bs.length
      have hnp := segmentLength_pos a bs.length hpos
      have hf : m.firstNotWriteable (segmentLength a bs.length) a = none :=
        firstNotWriteable_of_writeable m _ a (fun k hk => hw k (by omega))
      simp only [Memory.storeSegments, hf]
      rw [ih _ _ _ (by simp; omega)]
      · have hlen : (bs.take (segmentLength a bs.length)).length = segmentLength a bs.length := by simp; omega
        have := writeBytes_append m a (bs.take (segmentLength a bs.length)) (bs.drop (segmentLength a bs.length))
        rw [List.take_append_drop, hlen] at this
        rw [this]; rfl
      · intro k hk
        simp only [List.length_drop] at hk
        rw [writeBytes_perm]
        have := hw (segmentLength a bs.length + k) (by omega)
        rwa [← byteAddr_add] at this

theorem storeFrom_of_writeable {m : Memory} {a : Addr} {bs : List Byte} (h : Writeable m a bs.length) :
    m.storeFrom a bs = (m.writeBytes a bs, none) := storeSegments_of_writeable _ _ _ _ (Nat.le_refl _) h

theorem segmentLength_eq (a : Addr) (len : Nat) : segmentLength a len = min len (2 ^ 14 - a.toNat % 2 ^ 14) := rfl

theorem bytesBeforePage_zero {a : Addr} {len k : Nat} (h : k < segmentLength a len) : bytesBeforePage a k = 0 := by
  rw [segmentLength_eq] at h
  unfold bytesBeforePage
  omega

theorem bytesBeforePage_next {a : Addr} {len k : Nat} (h : segmentLength a len ≤ k) (hk : k < len) :
    bytesBeforePage a k =
      segmentLength a len + bytesBeforePage (byteAddr a (segmentLength a len)) (k - segmentLength a len) := by
  have hn : segmentLength a len = 2 ^ 14 - a.toNat % 2 ^ 14 := by rw [segmentLength_eq] at *; omega
  have ha : (byteAddr a (segmentLength a len)).toNat = (a.toNat + segmentLength a len) % 2 ^ 32 := by
    simp [byteAddr, BitVec.toNat_add]
  unfold bytesBeforePage
  rw [ha]
  omega

/-- A store with a byte that cannot be written: the fault is there, and the segments before its page are written. -/
theorem storeSegments_of_unwriteable : ∀ (fuel : Nat) (m : Memory) (a : Addr) (bs : List Byte) (k : Nat),
    bs.length ≤ fuel → FirstUnwriteable m a bs.length k →
    Memory.storeSegments fuel m a bs = (m.writeBytes a (bs.take (bytesBeforePage a k)), some ⟨byteAddr a k⟩) := by
  intro fuel
  induction fuel with
  | zero => intro m a bs k hl hk; exact absurd hk.1 (by omega)
  | succ fuel ih =>
    intro m a bs k hl ⟨hk, hw, hf⟩
    have hn := segmentLength_le a bs.length
    have hnp := segmentLength_pos a bs.length (by omega)
    rcases Nat.lt_or_ge k (segmentLength a bs.length) with hlt | hge
    · simp only [Memory.storeSegments, firstNotWriteable_of_unwriteable m _ k a ⟨hlt, hw, hf⟩,
        bytesBeforePage_zero hlt, List.take_zero, writeBytes_nil]
    · have hnone := firstNotWriteable_of_writeable m (segmentLength a bs.length) a (fun j hj => hw j (by omega))
      have hlen : (bs.take (segmentLength a bs.length)).length = segmentLength a bs.length := by simp; omega
      have hrest : FirstUnwriteable (m.writeBytes a (bs.take (segmentLength a bs.length)))
          (byteAddr a (segmentLength a bs.length)) (bs.drop (segmentLength a bs.length)).length
          (k - segmentLength a bs.length) := by
        refine ⟨by simp; omega, fun j hj => ?_, ?_⟩
        · rw [writeBytes_perm, byteAddr_add]; exact hw _ (by omega)
        · rw [writeBytes_perm, byteAddr_add, Nat.add_sub_cancel' hge]; exact hf
      have := ih _ _ _ _ (by simp; omega) hrest
      simp only [Memory.storeSegments, hnone]
      refine this.trans ?_
      rw [bytesBeforePage_next hge hk, List.take_add, writeBytes_append, hlen, byteAddr_add, Nat.add_sub_cancel' hge]

theorem storeFrom_of_unwriteable {m : Memory} {a : Addr} {bs : List Byte} {k : Nat}
    (h : FirstUnwriteable m a bs.length k) :
    m.storeFrom a bs = (m.writeBytes a (bs.take (bytesBeforePage a k)), some ⟨byteAddr a k⟩) :=
  storeSegments_of_unwriteable _ _ _ _ _ (Nat.le_refl _) h

/-- Whatever a store does, it is a run of writes of writeable bytes: some first part of bs at a. -/
theorem storeSegments_prefix : ∀ (fuel : Nat) (m : Memory) (a : Addr) (bs : List Byte), ∃ n, n ≤ bs.length ∧
    (Memory.storeSegments fuel m a bs).1 = m.writeBytes a (bs.take n) ∧ Writeable m a n := by
  intro fuel
  induction fuel with
  | zero => intro m a bs; exact ⟨0, by omega, by simp [Memory.storeSegments], fun k hk => absurd hk (by omega)⟩
  | succ fuel ih =>
    intro m a bs
    have hn := segmentLength_le a bs.length
    rcases writeable_or_first m a (segmentLength a bs.length) with hw | ⟨k, hk⟩
    · obtain ⟨n, hnl, he, hw'⟩ := ih (m.writeBytes a (bs.take (segmentLength a bs.length)))
        (byteAddr a (segmentLength a bs.length)) (bs.drop (segmentLength a bs.length))
      simp only [List.length_drop] at hnl
      refine ⟨segmentLength a bs.length + n, by omega, ?_, ?_⟩
      · rw [Memory.storeSegments]
        simp only [firstNotWriteable_of_writeable m _ a hw]
        have hlen : (bs.take (segmentLength a bs.length)).length = segmentLength a bs.length := by simp; omega
        have ht : bs.take (segmentLength a bs.length + n) =
            bs.take (segmentLength a bs.length) ++ (bs.drop (segmentLength a bs.length)).take n := by
          rw [List.take_add]
        rw [ht, writeBytes_append, hlen]
        exact he
      · intro j hj
        rcases Nat.lt_or_ge j (segmentLength a bs.length) with hlt | hge
        · exact hw j hlt
        · have := hw' (j - segmentLength a bs.length) (by omega)
          rw [writeBytes_perm, byteAddr_add] at this
          rwa [Nat.add_sub_cancel' hge] at this
    · refine ⟨0, by omega, ?_, fun k hk => absurd hk (by omega)⟩
      rw [Memory.storeSegments]
      simp [firstNotWriteable_of_unwriteable m _ _ a hk]

theorem storeFrom_prefix (m : Memory) (a : Addr) (bs : List Byte) : ∃ n, n ≤ bs.length ∧
    (m.storeFrom a bs).1 = m.writeBytes a (bs.take n) ∧ Writeable m a n := storeSegments_prefix _ _ _ _

theorem storeFrom_layout (m : Memory) (a : Addr) (bs : List Byte) :
    (m.storeFrom a bs).1.pages = m.pages ∧ (m.storeFrom a bs).1.sbrk = m.sbrk ∧
      (m.storeFrom a bs).1.vsbrk = m.vsbrk ∧ (m.storeFrom a bs).1.endHeap = m.endHeap := by
  obtain ⟨n, _, he, _⟩ := storeFrom_prefix m a bs
  rw [he]
  exact writeBytes_layout _ _ _

theorem storeFrom_perm (m : Memory) (a : Addr) (bs : List Byte) (b : Nat) :
    (m.storeFrom a bs).1.perm b = m.perm b := by
  obtain ⟨n, _, he, _⟩ := storeFrom_prefix m a bs
  rw [he, writeBytes_perm]

/-- A store keeps the canonical form, whether it faults or not. -/
theorem storeFrom_wf {m : Memory} (a : Addr) (bs : List Byte) (h : m.wf) : (m.storeFrom a bs).1.wf := by
  obtain ⟨n, hn, he, hw⟩ := storeFrom_prefix m a bs
  rw [he]
  refine writeBytes_wf h (fun k hk => hw k ?_)
  simp at hk
  omega

/-- A store never changes a byte that is not writeable. -/
theorem storeFrom_val_protected (m : Memory) (a : Addr) (bs : List Byte) (b : Addr)
    (h : m.perm b.toNat ≠ .readWrite) : (m.storeFrom a bs).1.val b.toNat = m.val b.toNat := by
  obtain ⟨n, hn, he, hw⟩ := storeFrom_prefix m a bs
  rw [he]
  refine val_writeBytes_other _ _ _ _ (fun k hk e => h ?_)
  rw [e]
  refine hw k ?_
  simp at hk
  omega

theorem readByte_of_perm {m m' : Memory} {b : Addr} (hp : m'.perm b.toNat = m.perm b.toNat)
    (hv : m'.val b.toNat = m.val b.toNat) : m'.readByte b = m.readByte b := by
  simp [Memory.readByte, hp, hv]

/-! ### Heap growth -/

theorem findPage_append (p q : List (Nat × Page)) (n : Nat) :
    findPage (p ++ q) n = (findPage p n).or (findPage q n) := by
  induction p with
  | nil => simp [findPage]
  | cons x p ih => simp only [List.cons_append, findPage]; split <;> simp [ih]

theorem findPage_filter (p : List (Nat × Page)) (f : Nat → Bool) (n : Nat) :
    findPage (p.filter (fun q => f q.1)) n = if f n then findPage p n else none := by
  induction p with
  | nil => simp [findPage]
  | cons x p ih =>
    by_cases hx : x.1 = n
    · subst hx; by_cases hf : f x.1 <;> simp [hf, findPage, ih]
    · by_cases hf : f x.1 <;> simp [hf, findPage, hx, ih]

theorem findPage_new (p : Page) (lo count n : Nat) :
    findPage ((List.range count).map (fun k => (lo + k, p))) n =
      if lo ≤ n ∧ n < lo + count then some p else none := by
  induction count with
  | zero => simp [findPage]
  | succ c ih =>
    rw [List.range_succ, List.map_append, findPage_append, ih]
    simp only [List.map_cons, List.map_nil, findPage]
    by_cases hn : lo + c = n
    · rw [if_pos hn, if_pos (show lo ≤ n ∧ n < lo + (c + 1) by omega)]
      split <;> rfl
    · rw [if_neg hn]
      by_cases h : lo ≤ n ∧ n < lo + c
      · rw [if_pos h, if_pos (show lo ≤ n ∧ n < lo + (c + 1) by omega)]; rfl
      · rw [if_neg h, if_neg (show ¬ (lo ≤ n ∧ n < lo + (c + 1)) by omega)]; rfl

/-- The page map after pages are placed: the new pages have the descriptor, every other page is as before. -/
theorem findPage_placePages (pages : List (Nat × Page)) (p : Page) (lo count n : Nat) :
    findPage (placePages pages p lo count) n =
      if lo ≤ n ∧ n < lo + count then some p else findPage pages n := by
  unfold placePages
  rw [findPage_append, findPage_append, findPage_new,
    findPage_filter pages (fun q => decide (q < lo)) n, findPage_filter pages (fun q => decide (lo + count ≤ q)) n]
  by_cases h1 : n < lo
  · simp [h1, show ¬ (lo ≤ n) by omega, show ¬ (lo + count ≤ n) by omega]
  · by_cases h2 : n < lo + count
    · simp [h1, h2, show lo ≤ n by omega]
    · simp [h1, h2, show lo + count ≤ n by omega]

theorem placePages_canonical (pages : List (Nat × Page)) (p : Page) (lo count : Nat) (h : pagesCanonical pages)
    (hp : p.canonical = true) (hb : lo + count ≤ Config.numPages) : pagesCanonical (placePages pages p lo count) := by
  obtain ⟨hs, hc⟩ := h
  unfold placePages
  refine ⟨?_, ?_⟩
  · rw [List.append_assoc, List.pairwise_append, List.pairwise_append]
    refine ⟨hs.filter _, ⟨?_, hs.filter _, ?_⟩, ?_⟩
    · rw [List.pairwise_map]
      exact List.pairwise_lt_range.imp (fun h => Nat.add_lt_add_left h lo)
    · intro a ha b hb
      simp only [List.mem_map, List.mem_range, List.mem_filter, decide_eq_true_eq] at ha hb
      obtain ⟨k, hk, rfl⟩ := ha
      show lo + k < b.1
      omega
    · intro a ha b hb
      simp only [List.mem_append, List.mem_map, List.mem_range, List.mem_filter, decide_eq_true_eq] at ha hb
      rcases hb with ⟨k, hk, rfl⟩ | hb
      · show a.1 < lo + k; omega
      · omega
  · intro q hq
    simp only [List.mem_append, List.mem_map, List.mem_range, List.mem_filter] at hq
    rcases hq with (hq | ⟨k, hk, rfl⟩) | hq
    · exact hc q hq.1
    · exact ⟨by show lo + k < _; omega, hp⟩
    · exact hc q hq.1

theorem pageNumber_mul_le (a : Nat) : pageNumber a * Config.pageSize ≤ a := Nat.div_mul_le_self _ _

theorem pageNumber_le {a b : Nat} (h : a ≤ b) : pageNumber a ≤ pageNumber b := Nat.div_le_div_right h

theorem pageNumber_aligned {a : Nat} (h : pageOffset a = 0) : pageNumber a * Config.pageSize = a :=
  Nat.div_mul_cancel (Nat.dvd_of_mod_eq_zero h)

theorem pageNumber_lt_iff {a b : Nat} (h : pageOffset b = 0) : pageNumber a < pageNumber b ↔ a < b := by
  unfold pageNumber
  rw [Nat.div_lt_iff_lt_mul (by decide)]
  have := pageNumber_aligned h
  unfold pageNumber at this
  rw [this]

theorem pageRoundUp_aligned (v : Nat) : pageOffset (pageRoundUp v) = 0 := Nat.mul_mod_left _ _

theorem le_pageRoundUp (v : Nat) : v ≤ pageRoundUp v := by
  have : Config.pageSize = 16384 := by decide
  unfold pageRoundUp
  rw [this]
  omega

theorem pageRoundUp_le {v b : Nat} (hb : pageOffset b = 0) (h : v ≤ b) : pageRoundUp v ≤ b := by
  have hs : Config.pageSize = 16384 := by decide
  have hb' := Nat.div_mul_cancel (Nat.dvd_of_mod_eq_zero hb)
  unfold pageRoundUp
  rw [hs] at *
  omega

theorem findPage_none_of {pages : List (Nat × Page)} {n : Nat} (h : ∀ q ∈ pages, q.1 ≠ n) : findPage pages n = none := by
  induction pages with
  | nil => rfl
  | cons x p ih => rw [findPage, if_neg (h x (by simp)), ih (fun q hq => h q (by simp [hq]))]

/-- A page map that has pages only outside the heap range gives every heap address no permission. -/
theorem pagePerm_heap {m : Memory} (h : m.wf) {a : Nat} (h1 : m.sbrk ≤ a) (h2 : a < m.endHeap) :
    m.pagePerm a = .noAccess := by
  obtain ⟨_, _, ⟨_, _, _, hs, he⟩, hh, _⟩ := h
  have hf : findPage m.pages (pageNumber a) = none := findPage_none_of (fun q hq e => by
    have h3 := pageNumber_le h1
    have h4 := (pageNumber_lt_iff (a := a) he).2 h2
    rcases hh q hq with h | h <;> omega)
  simp [Memory.pagePerm, hf]

/-- The page permissions after growth: the committed range is RW, every other address keeps its own. -/
theorem growHeap_pagePerm {m m' : Memory} {len prev : Nat} (h : m.wf) (hg : m.growHeap len = some (prev, m')) (a : Nat) :
    m'.pagePerm a = if m.sbrk ≤ a ∧ a < m'.sbrk then .readWrite else m.pagePerm a := by
  obtain ⟨_, _, ⟨_, _, _, hs, _⟩, _, _⟩ := h
  unfold Memory.growHeap at hg
  simp only at hg
  split at hg
  · exact absurd hg (by simp)
  · split at hg
    · simp only [Option.some.injEq, Prod.mk.injEq] at hg
      obtain ⟨_, rfl⟩ := hg
      rw [if_neg (by show ¬ (m.sbrk ≤ a ∧ a < m.sbrk); omega)]
      rfl
    · rename_i hnle
      simp only [Option.some.injEq, Prod.mk.injEq] at hg
      obtain ⟨_, rfl⟩ := hg
      have hal := pageRoundUp_aligned (m.vsbrk + len)
      have hle : m.sbrk ≤ pageRoundUp (m.vsbrk + len) := Nat.le_trans (Nat.le_of_lt (Nat.lt_of_not_le hnle)) (le_pageRoundUp _)
      simp only [Memory.pagePerm, findPage_placePages, Nat.add_sub_cancel' (pageNumber_le hle)]
      have h1 : pageNumber m.sbrk ≤ pageNumber a ↔ m.sbrk ≤ a := by
        rw [← Nat.not_lt, pageNumber_lt_iff hs, Nat.not_lt]
      simp only [h1, pageNumber_lt_iff hal]
      by_cases hin : m.sbrk ≤ a ∧ a < pageRoundUp (m.vsbrk + len)
      · simp only [if_pos hin]; rfl
      · simp only [if_neg hin]

/-- Heap growth keeps the canonical form. -/
theorem growHeap_wf {m m' : Memory} {len prev : Nat} (h : m.wf) (hg : m.growHeap len = some (prev, m')) : m'.wf := by
  have hpp := growHeap_pagePerm h hg
  obtain ⟨hc, hp, ⟨h1, h2, h3, h4, h5⟩, hh, hb⟩ := h
  unfold Memory.growHeap at hg
  simp only at hg
  split at hg
  · exact absurd hg (by simp)
  · rename_i hend
    split at hg
    · rename_i hle
      simp only [Option.some.injEq, Prod.mk.injEq] at hg
      obtain ⟨_, rfl⟩ := hg
      exact ⟨hc, hp, ⟨hle, h2, h3, h4, h5⟩, hh, hb⟩
    · rename_i hnle
      simp only [Option.some.injEq, Prod.mk.injEq] at hg
      obtain ⟨_, rfl⟩ := hg
      have hal := pageRoundUp_aligned (m.vsbrk + len)
      have hge := le_pageRoundUp (m.vsbrk + len)
      have hre := pageRoundUp_le h5 (Nat.le_of_not_lt hend)
      have hle : m.sbrk ≤ pageRoundUp (m.vsbrk + len) := by omega
      refine ⟨⟨hc.1.filter _, fun c hm => hc.2 c (List.mem_filter.1 hm).1⟩, ?_, ⟨hge, hre, h3, hal, h5⟩, ?_, ?_⟩
      · refine placePages_canonical _ _ _ _ hp rfl ?_
        rw [Nat.add_sub_cancel' (pageNumber_le hle)]
        exact pageNumber_le (Nat.le_trans hre h3)
      · intro q hq
        simp only [placePages, List.mem_append, List.mem_map, List.mem_range, List.mem_filter,
          decide_eq_true_eq] at hq
        rw [Nat.add_sub_cancel' (pageNumber_le hle)] at hq
        have hpn := pageNumber_le hle
        rcases hq with (hq | ⟨k, hk, rfl⟩) | hq
        · exact .inl (by show q.1 < pageNumber (pageRoundUp _); omega)
        · exact .inl (by show pageNumber m.sbrk + k < pageNumber (pageRoundUp _); omega)
        · rcases hh q hq.1 with h | h
          · omega
          · exact .inr h
      · intro c hm
        have hm' := List.mem_filter.1 hm
        have := hb c hm'.1
        rw [hpp c.1]
        split
        · decide
        · exact this

theorem fresh_wf : Memory.fresh.wf := by decide

end Sys2Proof.Machine
end

