-- ==== Sys2Proof/Laws/Builder.lean ====
section
/-! SUPPORT. What the memory builder's helpers do: content, page placement and chunk placement, and that each keeps the
canonical form. -/

namespace Sys2Proof.Machine

/-! ### Content -/

/-- Outside the written bytes the content is as before. -/
theorem readCell_writeContent_other (cs : List Host.Cell) (a : Nat) (data : List Byte) (x : Nat)
    (h : x < a ∨ a + data.length ≤ x) : readCell (writeContent cs a data) x = readCell cs x := by
  induction data generalizing cs a with
  | nil => rfl
  | cons b bs ih =>
    simp only [List.length_cons] at h
    rw [writeContent, ih _ _ (by omega), readCell_writeCell, if_neg (by omega)]

/-- The written bytes read back. -/
theorem readCell_writeContent (cs : List Host.Cell) (a : Nat) (data : List Byte) (k : Nat) (hk : k < data.length) :
    some (readCell (writeContent cs a data) (a + k)) = data[k]? := by
  induction data generalizing cs a k with
  | nil => simp at hk
  | cons b bs ih =>
    rw [writeContent]
    cases k with
    | zero => rw [readCell_writeContent_other _ _ _ _ (.inl (by omega)), readCell_writeCell]; simp
    | succ k =>
      rw [show a + (k + 1) = a + 1 + k by omega, ih _ _ _ (by simpa using hk)]
      simp

theorem writeContent_canonical (cs : List Host.Cell) (a : Nat) (data : List Byte) (h : cellsCanonical cs) :
    cellsCanonical (writeContent cs a data) := by
  induction data generalizing cs a with
  | nil => exact h
  | cons b bs ih => exact ih _ _ (writeCell_canonical _ _ _ h)

theorem mem_writeContent {cs : List Host.Cell} {a : Nat} {data : List Byte} {c : Host.Cell}
    (h : c ∈ writeContent cs a data) : (a ≤ c.1 ∧ c.1 < a + data.length) ∨ c ∈ cs := by
  induction data generalizing cs a with
  | nil => exact .inr h
  | cons b bs ih =>
    simp only [List.length_cons]
    rcases ih h with h | h
    · exact .inl (by omega)
    · rcases mem_writeCell h with h | h
      · exact .inl (by omega)
      · exact .inr h

/-- In a canonical list an address that no entry has reads as unlisted. -/
theorem readCell_of_unlisted {cs : List Host.Cell} {x : Nat} (h : ∀ c ∈ cs, c.1 ≠ x) : readCell cs x = unlistedByte := by
  induction cs with
  | nil => rfl
  | cons c cs ih =>
    rw [readCell, if_neg (h c (by simp)), ih (fun d hd => h d (by simp [hd]))]

/-! ### Chunks -/

/-- A chunk that overlaps none of the chunks lies, for each of them, wholly after it or wholly before it. -/
theorem chunk_apart {cs : List Chunk} {c : Chunk} (h : cs.any (fun d => c.overlaps d) = false) :
    ∀ d ∈ cs, d.stop ≤ c.start ∨ c.stop ≤ d.start := by
  intro d hd
  have := List.any_eq_false.1 h d hd
  simp only [Chunk.overlaps, decide_eq_true_eq] at this
  omega

theorem insertChunk_canonical {cs : List Chunk} {c : Chunk} (h : chunksCanonical cs) (hc : c.start < c.stop)
    (hs : c.stop ≤ Config.pageSize) : chunksCanonical (insertChunk c cs) := by
  obtain ⟨hr, hp⟩ := h
  refine ⟨fun d hd => ?_, ?_⟩
  · simp only [insertChunk, List.mem_append, List.mem_cons, List.mem_filter] at hd
    rcases hd with hd | rfl | hd
    · exact hr d hd.1
    · exact ⟨hc, hs⟩
    · exact hr d hd.1
  · unfold insertChunk
    rw [List.pairwise_append, List.pairwise_cons]
    refine ⟨hp.filter _, ⟨fun d hd => ?_, hp.filter _⟩, fun d hd e he => ?_⟩
    · simpa using (List.mem_filter.1 hd).2
    · have hd : d.stop ≤ c.start := by simpa using (List.mem_filter.1 hd).2
      rcases List.mem_cons.1 he with rfl | he
      · exact hd
      · have he : c.stop ≤ e.start := by simpa using (List.mem_filter.1 he).2
        omega

/-- Chunks in canonical form: the one that covers an offset is the only one. -/
theorem coveringChunk_eq {cs : List Chunk} (h : chunksCanonical cs) {c : Chunk} (hc : c ∈ cs) {x : Nat}
    (hx : c.start ≤ x ∧ x < c.stop) : coveringChunk cs x = some c := by
  obtain ⟨hr, hp⟩ := h
  induction cs with
  | nil => simp at hc
  | cons d cs ih =>
    have hd := List.pairwise_cons.1 hp
    unfold coveringChunk
    rw [List.find?_cons]
    rcases List.mem_cons.1 hc with rfl | hc
    · simp [hx]
    · have hlt := hd.1 c hc
      have : ¬ (d.start ≤ x ∧ x < d.stop) := by omega
      simp only [this, decide_false]
      exact ih hc (fun e he => hr e (by simp [he])) hd.2

theorem coveringChunk_none {cs : List Chunk} {x : Nat} (h : ∀ c ∈ cs, ¬ (c.start ≤ x ∧ x < c.stop)) :
    coveringChunk cs x = none := by
  unfold coveringChunk
  rw [List.find?_eq_none]
  intro c hc
  simpa using h c hc

/-- The chunk that covers an offset after an insertion: the new one inside its range, the old one outside it. -/
theorem coveringChunk_insertChunk {cs : List Chunk} {c : Chunk} (h : chunksCanonical cs) (hc : c.start < c.stop)
    (hs : c.stop ≤ Config.pageSize) (ha : ∀ d ∈ cs, d.stop ≤ c.start ∨ c.stop ≤ d.start) (x : Nat) :
    coveringChunk (insertChunk c cs) x = if c.start ≤ x ∧ x < c.stop then some c else coveringChunk cs x := by
  have hi := insertChunk_canonical h hc hs
  have hm : ∀ d, d ∈ insertChunk c cs ↔ d = c ∨ d ∈ cs := by
    intro d
    simp only [insertChunk, List.mem_append, List.mem_cons, List.mem_filter, decide_eq_true_eq]
    constructor
    · rintro (h | rfl | h)
      · exact .inr h.1
      · exact .inl rfl
      · exact .inr h.1
    · rintro (rfl | h)
      · exact .inr (.inl rfl)
      · rcases ha d h with h' | h'
        · exact .inl ⟨h, h'⟩
        · exact .inr (.inr ⟨h, h'⟩)
  split
  · rename_i hx; exact coveringChunk_eq hi ((hm c).2 (.inl rfl)) hx
  · rename_i hx
    by_cases he : ∃ d ∈ cs, d.start ≤ x ∧ x < d.stop
    · obtain ⟨d, hd, hdx⟩ := he
      rw [coveringChunk_eq hi ((hm d).2 (.inr hd)) hdx, coveringChunk_eq h hd hdx]
    · rw [coveringChunk_none (fun d hd hdx => he ⟨d, hd, hdx⟩), coveringChunk_none (fun d hd hdx => ?_)]
      rcases (hm d).1 hd with rfl | hd
      · exact hx hdx
      · exact he ⟨d, hd, hdx⟩

end Sys2Proof.Machine
end

