-- ==== Sys2Proof/Laws/Decode.lean ====
section
/-! SUPPORT. Laws of the little-endian byte strings, of the instruction length and of the operand fields, which the
decoder reads and the encoder writes. -/

namespace Sys2Proof

/-! ### Little-endian bytes -/

@[simp] theorem leBytes_length (n v : Nat) : (leBytes n v).length = n := by
  induction n generalizing v with
  | zero => rfl
  | succ n ih => simp [leBytes, ih]

theorem leBytes_getD (n v k : Nat) (h : k < n) : (leBytes n v).getD k 0 = BitVec.ofNat 8 (v / 256 ^ k) := by
  induction n generalizing v k with
  | zero => omega
  | succ n ih =>
    cases k with
    | zero => simp [leBytes]
    | succ k =>
      have := ih (v / 256) k (by omega)
      simp only [leBytes, List.getD_cons_succ, this, Nat.div_div_eq_div_mul, pow_succ']

theorem leValue_leBytes (n v : Nat) : leValue (leBytes n v) = v % 256 ^ n := by
  induction n generalizing v with
  | zero => simp [leBytes, leValue, Nat.mod_one]
  | succ n ih =>
    rw [leBytes, leValue, ih, BitVec.toNat_ofNat, pow_succ' 256 n, Nat.mod_mul]

/-- A value that a field of l bytes can hold comes back from its bytes (R87). -/
theorem sextBytes_leBytes {l : Nat} {v : Word} (h : immFits l v = true) :
    sextBytes l (leValue (leBytes l v.toNat)) = v := by
  have hv : sextBytes l v.toNat = v := by simpa [immFits] using h
  rw [leValue_leBytes]
  unfold sextBytes at *
  have he : BitVec.ofNat (8 * l) (v.toNat % 256 ^ l) = BitVec.ofNat (8 * l) v.toNat := by
    apply BitVec.eq_of_toNat_eq
    rw [BitVec.toNat_ofNat, BitVec.toNat_ofNat, show 256 = 2 ^ 8 by rfl, ← pow_mul, Nat.mod_mod]
  rw [he]
  exact hv

/-! ### The instruction length -/

/-- `skipFrom` counts up to the first mask bit that is 1, or to its limit (R84). -/
theorem skipFrom_spec (p : Program) (fuel k : Nat) :
    p.skipFrom fuel k ≤ fuel ∧ (∀ j, j < p.skipFrom fuel k → p.maskBit (k + j) = false) ∧
      (p.skipFrom fuel k < fuel → p.maskBit (k + p.skipFrom fuel k) = true) := by
  induction fuel generalizing k with
  | zero => simp [Program.skipFrom]
  | succ fuel ih =>
    obtain ⟨h1, h2, h3⟩ := ih (k + 1)
    unfold Program.skipFrom
    split
    · rename_i hm
      exact ⟨by omega, fun j hj => absurd hj (by omega), fun _ => hm⟩
    · rename_i hm
      refine ⟨by omega, fun j hj => ?_, fun hlt => ?_⟩
      · cases j with
        | zero => simpa using hm
        | succ j => rw [show k + (j + 1) = k + 1 + j by omega]; exact h2 j (by omega)
      · rw [show k + (1 + p.skipFrom fuel (k + 1)) = k + 1 + p.skipFrom fuel (k + 1) by omega]
        exact h3 (by omega)

/-! ### Fields -/

theorem nibbles_toNat {hi lo : Nat} (h : hi < 16) (l : lo < 16) : (nibbles hi lo).toNat = 16 * hi + lo := by
  simp only [nibbles, BitVec.toNat_ofNat]
  omega

@[simp] theorem regOfField_fin (r : Reg) : Config.regOfField r.val = r := by
  apply Fin.ext
  show min 12 r.val = r.val
  omega

@[simp] theorem regLo_nibbles (hi : Nat) (r : Reg) (h : hi < 16) : regLo (nibbles hi r.val) = r := by
  unfold regLo
  rw [nibbles_toNat h (by omega), show (16 * hi + r.val) % 16 = r.val by omega]
  exact regOfField_fin r

@[simp] theorem regHi_nibbles (r : Reg) (lo : Nat) (h : lo < 16) : regHi (nibbles r.val lo) = r := by
  unfold regHi
  rw [nibbles_toNat (by omega) h, show (16 * r.val + lo) / 16 = r.val by omega]
  exact regOfField_fin r

@[simp] theorem regByte_ofNat (r : Reg) : regByte (BitVec.ofNat 8 r.val) = r := by
  unfold regByte
  rw [BitVec.toNat_ofNat, show r.val % 2 ^ 8 = r.val by omega]
  exact regOfField_fin r

@[simp] theorem bytesAt_length (c : Nat → Byte) (p n : Nat) : (bytesAt c p n).length = n := by simp [bytesAt]

/-- n bytes read at a position are the bytes of a list that stand there. -/
theorem bytesAt_eq {c : Nat → Byte} {p : Nat} {bs : List Byte} (h : ∀ k, k < bs.length → c (p + k) = bs.getD k 0) :
    bytesAt c p bs.length = bs := by
  apply List.ext_getElem (by simp)
  intro k h1 h2
  have hk := h k h2
  simp only [bytesAt, List.getElem_map, List.getElem_range, hk]
  simp [List.getD_eq_getElem?_getD, h2]

end Sys2Proof
end

