-- ==== Sys2Proof/Laws/Ops.lean ====
section
/-! SUPPORT. What each shared operation can do, said once: gas, loads, stores, control transfer, heap growth, commit and
the step itself. Later proofs cite these lemmas and do not unfold the operations. -/

namespace Sys2Proof.Machine

/-! ### Gas -/

theorem gasSub_cases (gas c : Word) :
    (gas.toNat < c.toNat ∧ gasSub gas c = (0#64, true)) ∨ (c.toNat ≤ gas.toNat ∧ gasSub gas c = (gas - c, false)) := by
  unfold gasSub
  split
  · rename_i h; exact .inl ⟨h, rfl⟩
  · rename_i h; exact .inr ⟨Nat.le_of_not_lt h, rfl⟩

theorem gasSub_le (gas c : Word) : (gasSub gas c).1.toNat ≤ gas.toNat := by
  rcases gasSub_cases gas c with ⟨_, h⟩ | ⟨hle, h⟩ <;> rw [h]
  · simp
  · rw [BitVec.toNat_sub_of_le hle]; exact Nat.sub_le _ _

/-! ### Loads and stores -/

theorem load_of_readable {s : State} {rA : Reg} {a : Addr} {n : Nat} {ext : Word → Word} (h : Readable s.mem a n) :
    s.load rA a n ext = s.setReg rA (ext (BitVec.ofNat 64 (spanValue s.mem a n))) := by
  simp only [State.load, memRead_of_readable h]

theorem load_of_unreadable {s : State} {rA : Reg} {a : Addr} {n k : Nat} {ext : Word → Word}
    (h : FirstUnreadable s.mem a n k) :
    s.load rA a n ext = (s.setRegFree rA).raise (.fault (byteAddr a k)) := by
  simp only [State.load, memRead_of_unreadable h]

/-- All that a load can do. -/
theorem load_cases (s : State) (rA : Reg) (a : Addr) (n : Nat) (ext : Word → Word) :
    (∃ v, s.load rA a n ext = s.setReg rA v) ∨ ∃ f, s.load rA a n ext = (s.setRegFree rA).raise (.fault f) := by
  rcases readable_or_first s.mem a n with h | ⟨k, h⟩
  · exact .inl ⟨_, load_of_readable h⟩
  · exact .inr ⟨_, load_of_unreadable h⟩

theorem store_of_writeable {s : State} {a : Addr} {n : Nat} {v : Word} (h : Writeable s.mem a n) :
    s.store a n v = { s with mem := s.mem.writeBytes a (leBytes n v.toNat) } := by
  simp only [State.store, Memory.memWrite, storeFrom_of_writeable (bs := leBytes n v.toNat) (by simpa using h)]

/-- All that a store can do: a first part of the bytes is written, and nothing or a FAULT goes into the record. -/
theorem store_cases (s : State) (a : Addr) (n : Nat) (v : Word) :
    ∃ k, k ≤ n ∧ Writeable s.mem a k ∧
      (s.store a n v = { s with mem := s.mem.writeBytes a ((leBytes n v.toNat).take k) } ∨
        ∃ f, s.store a n v = { s with mem := s.mem.writeBytes a ((leBytes n v.toNat).take k) }.raise (.fault f)) := by
  obtain ⟨k, hk, he, hw⟩ := storeFrom_prefix s.mem a (leBytes n v.toNat)
  refine ⟨k, by simpa using hk, hw, ?_⟩
  unfold State.store Memory.memWrite
  rcases hr : s.mem.storeFrom a (leBytes n v.toNat) with ⟨m, f⟩
  rw [hr] at he
  have he : m = _ := he
  subst he
  cases f with
  | none => exact .inl rfl
  | some f => exact .inr ⟨f.address, rfl⟩

/-! ### Control transfer -/

/-- All that a branch can do. -/
theorem branch_cases (s : State) (t : Addr) (c : Bool) :
    (c = false ∧ s.branch t c = s) ∨ (c = true ∧ s.isBlockStart t = true ∧ s.branch t c = s.jumpTo t) ∨
      (c = true ∧ s.isBlockStart t = false ∧ s.branch t c = s.raise .panic) := by
  unfold State.branch
  cases c <;> cases h : s.isBlockStart t <;> simp

/-- All that a dynamic jump can do. -/
theorem djump_cases (s : State) (a : Addr) :
    (a = Config.haltAddress ∧ s.djump a = s.raise .halt) ∨ s.djump a = s.raise .panic ∨
      ∃ t, s.jumpEntry a = some t ∧ s.isBlockStart t = true ∧ s.djump a = s.jumpTo t := by
  unfold State.djump
  split
  · rename_i h; exact .inl ⟨h, rfl⟩
  · split
    · exact .inr (.inl rfl)
    · split
      · exact .inr (.inl rfl)
      · rename_i t ht
        cases hb : s.isBlockStart t
        · exact .inr (.inl (by simp))
        · exact .inr (.inr ⟨t, ht, hb, by simp⟩)

/-! ### Heap growth -/

/-- All that a heap request can give. -/
theorem heapRequest_cases (s : State) (length : Word) :
    (length.toNat < 2 ^ 32 ∧ s.heapRequest length = s.mem.growHeap length.toNat) ∨
      (2 ^ 32 ≤ length.toNat ∧ s.heapRequest length = none) := by
  unfold State.heapRequest
  split
  · rename_i h; exact .inl ⟨h, rfl⟩
  · rename_i h; exact .inr ⟨Nat.le_of_not_lt h, rfl⟩

/-- All that heap growth can do. -/
theorem sbrkWith_cases (s : State) (p : SbrkOomPolicy) (rD rA : Reg) :
    (∃ prev m, (s.reg rA).toNat < 2 ^ 32 ∧ s.mem.growHeap (s.reg rA).toNat = some (prev, m) ∧
        s.sbrkWith p rD rA = { s with mem := m }.setReg rD (BitVec.ofNat 64 prev)) ∨
      ((2 ^ 32 ≤ (s.reg rA).toNat ∨ s.mem.growHeap (s.reg rA).toNat = none) ∧
        (s.sbrkWith p rD rA = s.setReg rD 0#64 ∨ s.sbrkWith p rD rA = s.raise .panic)) := by
  unfold State.sbrkWith State.sbrkOom
  rcases heapRequest_cases s (s.reg rA) with ⟨hl, h⟩ | ⟨hl, h⟩ <;> rw [h]
  · rcases s.mem.growHeap (s.reg rA).toNat with _ | ⟨prev, m⟩
    · cases p
      · exact .inr ⟨.inr rfl, .inl rfl⟩
      · exact .inr ⟨.inr rfl, .inr rfl⟩
    · exact .inl ⟨prev, m, hl, rfl, rfl⟩
  · cases p
    · exact .inr ⟨.inl hl, .inl rfl⟩
    · exact .inr ⟨.inl hl, .inr rfl⟩

/-! ### The host's access -/

theorem hostMayAccess_iff (s : State) : s.hostMayAccess = true ↔ s.status ≠ .ok ∨ s.started = false := by
  unfold State.hostMayAccess
  cases s.status <;> simp

/-- All that an access of the host can answer. -/
theorem hostAccess_cases {α : Type} (s : State) (x : α) :
    ((s.status ≠ .ok ∨ s.started = false) ∧ s.hostAccess x = .next x) ∨
      (s.status = .ok ∧ s.started = true ∧ s.hostAccess x = .refused .hostAccessWhileRunning) := by
  unfold State.hostAccess
  split
  · rename_i h; exact .inl ⟨(hostMayAccess_iff s).1 h, rfl⟩
  · rename_i h
    rw [hostMayAccess_iff] at h
    simp only [not_or, not_not, Bool.not_eq_false] at h
    exact .inr ⟨h.1, h.2, rfl⟩

/-! ### Commit and the step -/

@[simp] theorem commit_mem (s : State) (l : Nat) : (s.commit l).mem = s.mem := by
  unfold State.commit State.takeExit
  repeat' split
  all_goals rfl

@[simp] theorem commit_prog (s : State) (l : Nat) : (s.commit l).prog = s.prog := by
  unfold State.commit State.takeExit
  repeat' split
  all_goals rfl

@[simp] theorem commit_blocks (s : State) (l : Nat) : (s.commit l).blocks = s.blocks := by
  unfold State.commit State.takeExit
  repeat' split
  all_goals rfl

@[simp] theorem commit_regs (s : State) (l : Nat) : (s.commit l).regs = s.regs := by
  unfold State.commit State.takeExit
  repeat' split
  all_goals rfl

@[simp] theorem commit_result (s : State) (l : Nat) : (s.commit l).result = s.result := by
  unfold State.commit State.takeExit
  repeat' split
  all_goals rfl

@[simp] theorem commit_started (s : State) (l : Nat) : (s.commit l).started = s.started := by
  unfold State.commit State.takeExit
  repeat' split
  all_goals rfl

@[simp] theorem commit_freeCount (s : State) (l : Nat) : (s.commit l).freeCount = s.freeCount := by
  unfold State.commit State.takeExit
  repeat' split
  all_goals rfl

theorem commit_gas_le (s : State) (l : Nat) : (s.commit l).gas.toNat ≤ s.gas.toNat := by
  unfold State.commit State.takeExit
  repeat' split
  all_goals first | exact gasSub_le _ _ | exact Nat.le_refl _

theorem commit_exitParamWf (s : State) (l : Nat) : exitParamWf (s.commit l) := by
  unfold State.commit State.takeExit
  repeat' split
  all_goals simp [exitParamWf]

/-- All that a step can do: nothing in a final status; the gas check's stop; or the instruction at pc and its commit. -/
theorem step_cases {s t : State} (h : step s = .next t) :
    (s.status.isFinal = true ∧ t = s) ∨
      (s.status.isFinal = false ∧ s.resume.chargeGas.2 = true ∧ t = s.resume.chargeGas.1.outOfGas) ∨
      (s.status.isFinal = false ∧ s.resume.chargeGas.2 = false ∧
        ∃ u, exec s.resume.chargeGas.1.fetch.1 s.resume.chargeGas.1.clearResult = .next u ∧
          t = u.commit s.resume.chargeGas.1.fetch.2) := by
  unfold step at h
  split at h
  · rename_i hf
    exact .inl ⟨hf, (Host.Outcome.next.inj h).symm⟩
  · rename_i hf
    have hf : s.status.isFinal = false := by simpa using hf
    split at h
    · rename_i t' hc
      refine .inr (.inl ⟨hf, by rw [hc], ?_⟩)
      rw [hc]; exact (Host.Outcome.next.inj h).symm
    · rename_i t' hc
      refine .inr (.inr ⟨hf, by rw [hc], ?_⟩)
      rw [hc]
      unfold runFetched at h
      split at h
      · rename_i u hu; exact ⟨u, hu, (Host.Outcome.next.inj h).symm⟩
      · exact absurd h (by simp)
      · exact absurd h (by simp)

end Sys2Proof.Machine
end

