-- ==== Sys2Proof/Laws/PerInstr.lean ====
section
/-! SUPPORT. The family OpcodeMapRow, one lemma for each instruction: the opcode map's row at the instruction's opcode
byte has the instruction's shape and makes the instruction out of its operand record (R102, R103). -/

namespace Sys2Proof.Laws

/-- The instruction a row makes out of an operand record of its own shape. -/
def rowBuild : Row → Args → Option Instr
  | .noArgs mk, .noArgs => some mk
  | .oneImm mk, .oneImm immX => some (mk immX)
  | .regExtImm mk, .regExtImm rA immX => some (mk rA immX)
  | .twoImms mk, .twoImms immX immY => some (mk immX immY)
  | .oneOffset mk, .oneOffset target => some (mk target)
  | .regImm mk, .regImm rA immX => some (mk rA immX)
  | .regTwoImms mk, .regTwoImms rA immX immY => some (mk rA immX immY)
  | .regImmOffset mk, .regImmOffset rA immX target => some (mk rA immX target)
  | .twoRegs mk, .twoRegs rD rA => some (mk rD rA)
  | .twoRegsImm mk, .twoRegsImm rA rB immX => some (mk rA rB immX)
  | .twoRegsOffset mk, .twoRegsOffset rA rB target => some (mk rA rB target)
  | .twoRegsTwoImms mk, .twoRegsTwoImms rA rB immX immY => some (mk rA rB immX immY)
  | .threeRegs mk, .threeRegs rD rA rB => some (mk rD rA rB)
  | _, _ => none

namespace OpcodeMapRow

/-- The opcode is one byte; its row has the shape of the operand record and makes the instruction from it. -/
def Statement (i : Instr) : Prop :=
  i.opcode < 256 ∧ (opcodeMap i.opcode).shape = i.args.shape ∧ rowBuild (opcodeMap i.opcode) i.args = some i

theorem trap : Statement .trap :=
  ⟨Nat.le_of_ble_eq_true rfl, rfl, rfl⟩
theorem fallthrough : Statement .fallthrough :=
  ⟨Nat.le_of_ble_eq_true rfl, rfl, rfl⟩
theorem ecalli (immX : Word) : Statement (.ecalli immX) :=
  ⟨Nat.le_of_ble_eq_true rfl, rfl, rfl⟩
theorem loadImm64 (rA : Reg) (immX : Word) : Statement (.loadImm64 rA immX) :=
  ⟨Nat.le_of_ble_eq_true rfl, rfl, rfl⟩
theorem storeImmU8 (immX immY : Word) : Statement (.storeImmU8 immX immY) :=
  ⟨Nat.le_of_ble_eq_true rfl, rfl, rfl⟩
theorem storeImmU16 (immX immY : Word) : Statement (.storeImmU16 immX immY) :=
  ⟨Nat.le_of_ble_eq_true rfl, rfl, rfl⟩
theorem storeImmU32 (immX immY : Word) : Statement (.storeImmU32 immX immY) :=
  ⟨Nat.le_of_ble_eq_true rfl, rfl, rfl⟩
theorem storeImmU64 (immX immY : Word) : Statement (.storeImmU64 immX immY) :=
  ⟨Nat.le_of_ble_eq_true rfl, rfl, rfl⟩
theorem jump (target : Addr) : Statement (.jump target) :=
  ⟨Nat.le_of_ble_eq_true rfl, rfl, rfl⟩
theorem jumpInd (rA : Reg) (immX : Word) : Statement (.jumpInd rA immX) :=
  ⟨Nat.le_of_ble_eq_true rfl, rfl, rfl⟩
theorem loadImm (rA : Reg) (immX : Word) : Statement (.loadImm rA immX) :=
  ⟨Nat.le_of_ble_eq_true rfl, rfl, rfl⟩
theorem loadU8 (rA : Reg) (immX : Word) : Statement (.loadU8 rA immX) :=
  ⟨Nat.le_of_ble_eq_true rfl, rfl, rfl⟩
theorem loadI8 (rA : Reg) (immX : Word) : Statement (.loadI8 rA immX) :=
  ⟨Nat.le_of_ble_eq_true rfl, rfl, rfl⟩
theorem loadU16 (rA : Reg) (immX : Word) : Statement (.loadU16 rA immX) :=
  ⟨Nat.le_of_ble_eq_true rfl, rfl, rfl⟩
theorem loadI16 (rA : Reg) (immX : Word) : Statement (.loadI16 rA immX) :=
  ⟨Nat.le_of_ble_eq_true rfl, rfl, rfl⟩
theorem loadU32 (rA : Reg) (immX : Word) : Statement (.loadU32 rA immX) :=
  ⟨Nat.le_of_ble_eq_true rfl, rfl, rfl⟩
theorem loadI32 (rA : Reg) (immX : Word) : Statement (.loadI32 rA immX) :=
  ⟨Nat.le_of_ble_eq_true rfl, rfl, rfl⟩
theorem loadU64 (rA : Reg) (immX : Word) : Statement (.loadU64 rA immX) :=
  ⟨Nat.le_of_ble_eq_true rfl, rfl, rfl⟩
theorem storeU8 (rA : Reg) (immX : Word) : Statement (.storeU8 rA immX) :=
  ⟨Nat.le_of_ble_eq_true rfl, rfl, rfl⟩
theorem storeU16 (rA : Reg) (immX : Word) : Statement (.storeU16 rA immX) :=
  ⟨Nat.le_of_ble_eq_true rfl, rfl, rfl⟩
theorem storeU32 (rA : Reg) (immX : Word) : Statement (.storeU32 rA immX) :=
  ⟨Nat.le_of_ble_eq_true rfl, rfl, rfl⟩
theorem storeU64 (rA : Reg) (immX : Word) : Statement (.storeU64 rA immX) :=
  ⟨Nat.le_of_ble_eq_true rfl, rfl, rfl⟩
theorem storeImmIndU8 (rA : Reg) (immX immY : Word) : Statement (.storeImmIndU8 rA immX immY) :=
  ⟨Nat.le_of_ble_eq_true rfl, rfl, rfl⟩
theorem storeImmIndU16 (rA : Reg) (immX immY : Word) : Statement (.storeImmIndU16 rA immX immY) :=
  ⟨Nat.le_of_ble_eq_true rfl, rfl, rfl⟩
theorem storeImmIndU32 (rA : Reg) (immX immY : Word) : Statement (.storeImmIndU32 rA immX immY) :=
  ⟨Nat.le_of_ble_eq_true rfl, rfl, rfl⟩
theorem storeImmIndU64 (rA : Reg) (immX immY : Word) : Statement (.storeImmIndU64 rA immX immY) :=
  ⟨Nat.le_of_ble_eq_true rfl, rfl, rfl⟩
theorem loadImmJump (rA : Reg) (immX : Word) (target : Addr) : Statement (.loadImmJump rA immX target) :=
  ⟨Nat.le_of_ble_eq_true rfl, rfl, rfl⟩
theorem branchEqImm (rA : Reg) (immX : Word) (target : Addr) : Statement (.branchEqImm rA immX target) :=
  ⟨Nat.le_of_ble_eq_true rfl, rfl, rfl⟩
theorem branchNeImm (rA : Reg) (immX : Word) (target : Addr) : Statement (.branchNeImm rA immX target) :=
  ⟨Nat.le_of_ble_eq_true rfl, rfl, rfl⟩
theorem branchLtUImm (rA : Reg) (immX : Word) (target : Addr) : Statement (.branchLtUImm rA immX target) :=
  ⟨Nat.le_of_ble_eq_true rfl, rfl, rfl⟩
theorem branchLeUImm (rA : Reg) (immX : Word) (target : Addr) : Statement (.branchLeUImm rA immX target) :=
  ⟨Nat.le_of_ble_eq_true rfl, rfl, rfl⟩
theorem branchGeUImm (rA : Reg) (immX : Word) (target : Addr) : Statement (.branchGeUImm rA immX target) :=
  ⟨Nat.le_of_ble_eq_true rfl, rfl, rfl⟩
theorem branchGtUImm (rA : Reg) (immX : Word) (target : Addr) : Statement (.branchGtUImm rA immX target) :=
  ⟨Nat.le_of_ble_eq_true rfl, rfl, rfl⟩
theorem branchLtSImm (rA : Reg) (immX : Word) (target : Addr) : Statement (.branchLtSImm rA immX target) :=
  ⟨Nat.le_of_ble_eq_true rfl, rfl, rfl⟩
theorem branchLeSImm (rA : Reg) (immX : Word) (target : Addr) : Statement (.branchLeSImm rA immX target) :=
  ⟨Nat.le_of_ble_eq_true rfl, rfl, rfl⟩
theorem branchGeSImm (rA : Reg) (immX : Word) (target : Addr) : Statement (.branchGeSImm rA immX target) :=
  ⟨Nat.le_of_ble_eq_true rfl, rfl, rfl⟩
theorem branchGtSImm (rA : Reg) (immX : Word) (target : Addr) : Statement (.branchGtSImm rA immX target) :=
  ⟨Nat.le_of_ble_eq_true rfl, rfl, rfl⟩
theorem moveReg (rD rA : Reg) : Statement (.moveReg rD rA) :=
  ⟨Nat.le_of_ble_eq_true rfl, rfl, rfl⟩
theorem sbrk (rD rA : Reg) : Statement (.sbrk rD rA) :=
  ⟨Nat.le_of_ble_eq_true rfl, rfl, rfl⟩
theorem countSetBits64 (rD rA : Reg) : Statement (.countSetBits64 rD rA) :=
  ⟨Nat.le_of_ble_eq_true rfl, rfl, rfl⟩
theorem countSetBits32 (rD rA : Reg) : Statement (.countSetBits32 rD rA) :=
  ⟨Nat.le_of_ble_eq_true rfl, rfl, rfl⟩
theorem leadingZeroBits64 (rD rA : Reg) : Statement (.leadingZeroBits64 rD rA) :=
  ⟨Nat.le_of_ble_eq_true rfl, rfl, rfl⟩
theorem leadingZeroBits32 (rD rA : Reg) : Statement (.leadingZeroBits32 rD rA) :=
  ⟨Nat.le_of_ble_eq_true rfl, rfl, rfl⟩
theorem trailingZeroBits64 (rD rA : Reg) : Statement (.trailingZeroBits64 rD rA) :=
  ⟨Nat.le_of_ble_eq_true rfl, rfl, rfl⟩
theorem trailingZeroBits32 (rD rA : Reg) : Statement (.trailingZeroBits32 rD rA) :=
  ⟨Nat.le_of_ble_eq_true rfl, rfl, rfl⟩
theorem signExtend8 (rD rA : Reg) : Statement (.signExtend8 rD rA) :=
  ⟨Nat.le_of_ble_eq_true rfl, rfl, rfl⟩
theorem signExtend16 (rD rA : Reg) : Statement (.signExtend16 rD rA) :=
  ⟨Nat.le_of_ble_eq_true rfl, rfl, rfl⟩
theorem zeroExtend16 (rD rA : Reg) : Statement (.zeroExtend16 rD rA) :=
  ⟨Nat.le_of_ble_eq_true rfl, rfl, rfl⟩
theorem reverseBytes (rD rA : Reg) : Statement (.reverseBytes rD rA) :=
  ⟨Nat.le_of_ble_eq_true rfl, rfl, rfl⟩
theorem storeIndU8 (rA rB : Reg) (immX : Word) : Statement (.storeIndU8 rA rB immX) :=
  ⟨Nat.le_of_ble_eq_true rfl, rfl, rfl⟩
theorem storeIndU16 (rA rB : Reg) (immX : Word) : Statement (.storeIndU16 rA rB immX) :=
  ⟨Nat.le_of_ble_eq_true rfl, rfl, rfl⟩
theorem storeIndU32 (rA rB : Reg) (immX : Word) : Statement (.storeIndU32 rA rB immX) :=
  ⟨Nat.le_of_ble_eq_true rfl, rfl, rfl⟩
theorem storeIndU64 (rA rB : Reg) (immX : Word) : Statement (.storeIndU64 rA rB immX) :=
  ⟨Nat.le_of_ble_eq_true rfl, rfl, rfl⟩
theorem loadIndU8 (rA rB : Reg) (immX : Word) : Statement (.loadIndU8 rA rB immX) :=
  ⟨Nat.le_of_ble_eq_true rfl, rfl, rfl⟩
theorem loadIndI8 (rA rB : Reg) (immX : Word) : Statement (.loadIndI8 rA rB immX) :=
  ⟨Nat.le_of_ble_eq_true rfl, rfl, rfl⟩
theorem loadIndU16 (rA rB : Reg) (immX : Word) : Statement (.loadIndU16 rA rB immX) :=
  ⟨Nat.le_of_ble_eq_true rfl, rfl, rfl⟩
theorem loadIndI16 (rA rB : Reg) (immX : Word) : Statement (.loadIndI16 rA rB immX) :=
  ⟨Nat.le_of_ble_eq_true rfl, rfl, rfl⟩
theorem loadIndU32 (rA rB : Reg) (immX : Word) : Statement (.loadIndU32 rA rB immX) :=
  ⟨Nat.le_of_ble_eq_true rfl, rfl, rfl⟩
theorem loadIndI32 (rA rB : Reg) (immX : Word) : Statement (.loadIndI32 rA rB immX) :=
  ⟨Nat.le_of_ble_eq_true rfl, rfl, rfl⟩
theorem loadIndU64 (rA rB : Reg) (immX : Word) : Statement (.loadIndU64 rA rB immX) :=
  ⟨Nat.le_of_ble_eq_true rfl, rfl, rfl⟩
theorem addImm32 (rA rB : Reg) (immX : Word) : Statement (.addImm32 rA rB immX) :=
  ⟨Nat.le_of_ble_eq_true rfl, rfl, rfl⟩
theorem andImm (rA rB : Reg) (immX : Word) : Statement (.andImm rA rB immX) :=
  ⟨Nat.le_of_ble_eq_true rfl, rfl, rfl⟩
theorem xorImm (rA rB : Reg) (immX : Word) : Statement (.xorImm rA rB immX) :=
  ⟨Nat.le_of_ble_eq_true rfl, rfl, rfl⟩
theorem orImm (rA rB : Reg) (immX : Word) : Statement (.orImm rA rB immX) :=
  ⟨Nat.le_of_ble_eq_true rfl, rfl, rfl⟩
theorem mulImm32 (rA rB : Reg) (immX : Word) : Statement (.mulImm32 rA rB immX) :=
  ⟨Nat.le_of_ble_eq_true rfl, rfl, rfl⟩
theorem setLtUImm (rA rB : Reg) (immX : Word) : Statement (.setLtUImm rA rB immX) :=
  ⟨Nat.le_of_ble_eq_true rfl, rfl, rfl⟩
theorem setLtSImm (rA rB : Reg) (immX : Word) : Statement (.setLtSImm rA rB immX) :=
  ⟨Nat.le_of_ble_eq_true rfl, rfl, rfl⟩
theorem shloLImm32 (rA rB : Reg) (immX : Word) : Statement (.shloLImm32 rA rB immX) :=
  ⟨Nat.le_of_ble_eq_true rfl, rfl, rfl⟩
theorem shloRImm32 (rA rB : Reg) (immX : Word) : Statement (.shloRImm32 rA rB immX) :=
  ⟨Nat.le_of_ble_eq_true rfl, rfl, rfl⟩
theorem sharRImm32 (rA rB : Reg) (immX : Word) : Statement (.sharRImm32 rA rB immX) :=
  ⟨Nat.le_of_ble_eq_true rfl, rfl, rfl⟩
theorem negAddImm32 (rA rB : Reg) (immX : Word) : Statement (.negAddImm32 rA rB immX) :=
  ⟨Nat.le_of_ble_eq_true rfl, rfl, rfl⟩
theorem setGtUImm (rA rB : Reg) (immX : Word) : Statement (.setGtUImm rA rB immX) :=
  ⟨Nat.le_of_ble_eq_true rfl, rfl, rfl⟩
theorem setGtSImm (rA rB : Reg) (immX : Word) : Statement (.setGtSImm rA rB immX) :=
  ⟨Nat.le_of_ble_eq_true rfl, rfl, rfl⟩
theorem shloLImmAlt32 (rA rB : Reg) (immX : Word) : Statement (.shloLImmAlt32 rA rB immX) :=
  ⟨Nat.le_of_ble_eq_true rfl, rfl, rfl⟩
theorem shloRImmAlt32 (rA rB : Reg) (immX : Word) : Statement (.shloRImmAlt32 rA rB immX) :=
  ⟨Nat.le_of_ble_eq_true rfl, rfl, rfl⟩
theorem sharRImmAlt32 (rA rB : Reg) (immX : Word) : Statement (.sharRImmAlt32 rA rB immX) :=
  ⟨Nat.le_of_ble_eq_true rfl, rfl, rfl⟩
theorem cmovIzImm (rA rB : Reg) (immX : Word) : Statement (.cmovIzImm rA rB immX) :=
  ⟨Nat.le_of_ble_eq_true rfl, rfl, rfl⟩
theorem cmovNzImm (rA rB : Reg) (immX : Word) : Statement (.cmovNzImm rA rB immX) :=
  ⟨Nat.le_of_ble_eq_true rfl, rfl, rfl⟩
theorem addImm64 (rA rB : Reg) (immX : Word) : Statement (.addImm64 rA rB immX) :=
  ⟨Nat.le_of_ble_eq_true rfl, rfl, rfl⟩
theorem mulImm64 (rA rB : Reg) (immX : Word) : Statement (.mulImm64 rA rB immX) :=
  ⟨Nat.le_of_ble_eq_true rfl, rfl, rfl⟩
theorem shloLImm64 (rA rB : Reg) (immX : Word) : Statement (.shloLImm64 rA rB immX) :=
  ⟨Nat.le_of_ble_eq_true rfl, rfl, rfl⟩
theorem shloRImm64 (rA rB : Reg) (immX : Word) : Statement (.shloRImm64 rA rB immX) :=
  ⟨Nat.le_of_ble_eq_true rfl, rfl, rfl⟩
theorem sharRImm64 (rA rB : Reg) (immX : Word) : Statement (.sharRImm64 rA rB immX) :=
  ⟨Nat.le_of_ble_eq_true rfl, rfl, rfl⟩
theorem negAddImm64 (rA rB : Reg) (immX : Word) : Statement (.negAddImm64 rA rB immX) :=
  ⟨Nat.le_of_ble_eq_true rfl, rfl, rfl⟩
theorem shloLImmAlt64 (rA rB : Reg) (immX : Word) : Statement (.shloLImmAlt64 rA rB immX) :=
  ⟨Nat.le_of_ble_eq_true rfl, rfl, rfl⟩
theorem shloRImmAlt64 (rA rB : Reg) (immX : Word) : Statement (.shloRImmAlt64 rA rB immX) :=
  ⟨Nat.le_of_ble_eq_true rfl, rfl, rfl⟩
theorem sharRImmAlt64 (rA rB : Reg) (immX : Word) : Statement (.sharRImmAlt64 rA rB immX) :=
  ⟨Nat.le_of_ble_eq_true rfl, rfl, rfl⟩
theorem rotR64Imm (rA rB : Reg) (immX : Word) : Statement (.rotR64Imm rA rB immX) :=
  ⟨Nat.le_of_ble_eq_true rfl, rfl, rfl⟩
theorem rotR64ImmAlt (rA rB : Reg) (immX : Word) : Statement (.rotR64ImmAlt rA rB immX) :=
  ⟨Nat.le_of_ble_eq_true rfl, rfl, rfl⟩
theorem rotR32Imm (rA rB : Reg) (immX : Word) : Statement (.rotR32Imm rA rB immX) :=
  ⟨Nat.le_of_ble_eq_true rfl, rfl, rfl⟩
theorem rotR32ImmAlt (rA rB : Reg) (immX : Word) : Statement (.rotR32ImmAlt rA rB immX) :=
  ⟨Nat.le_of_ble_eq_true rfl, rfl, rfl⟩
theorem branchEq (rA rB : Reg) (target : Addr) : Statement (.branchEq rA rB target) :=
  ⟨Nat.le_of_ble_eq_true rfl, rfl, rfl⟩
theorem branchNe (rA rB : Reg) (target : Addr) : Statement (.branchNe rA rB target) :=
  ⟨Nat.le_of_ble_eq_true rfl, rfl, rfl⟩
theorem branchLtU (rA rB : Reg) (target : Addr) : Statement (.branchLtU rA rB target) :=
  ⟨Nat.le_of_ble_eq_true rfl, rfl, rfl⟩
theorem branchLtS (rA rB : Reg) (target : Addr) : Statement (.branchLtS rA rB target) :=
  ⟨Nat.le_of_ble_eq_true rfl, rfl, rfl⟩
theorem branchGeU (rA rB : Reg) (target : Addr) : Statement (.branchGeU rA rB target) :=
  ⟨Nat.le_of_ble_eq_true rfl, rfl, rfl⟩
theorem branchGeS (rA rB : Reg) (target : Addr) : Statement (.branchGeS rA rB target) :=
  ⟨Nat.le_of_ble_eq_true rfl, rfl, rfl⟩
theorem loadImmJumpInd (rA rB : Reg) (immX immY : Word) : Statement (.loadImmJumpInd rA rB immX immY) :=
  ⟨Nat.le_of_ble_eq_true rfl, rfl, rfl⟩
theorem add32 (rD rA rB : Reg) : Statement (.add32 rD rA rB) :=
  ⟨Nat.le_of_ble_eq_true rfl, rfl, rfl⟩
theorem sub32 (rD rA rB : Reg) : Statement (.sub32 rD rA rB) :=
  ⟨Nat.le_of_ble_eq_true rfl, rfl, rfl⟩
theorem mul32 (rD rA rB : Reg) : Statement (.mul32 rD rA rB) :=
  ⟨Nat.le_of_ble_eq_true rfl, rfl, rfl⟩
theorem divU32 (rD rA rB : Reg) : Statement (.divU32 rD rA rB) :=
  ⟨Nat.le_of_ble_eq_true rfl, rfl, rfl⟩
theorem divS32 (rD rA rB : Reg) : Statement (.divS32 rD rA rB) :=
  ⟨Nat.le_of_ble_eq_true rfl, rfl, rfl⟩
theorem remU32 (rD rA rB : Reg) : Statement (.remU32 rD rA rB) :=
  ⟨Nat.le_of_ble_eq_true rfl, rfl, rfl⟩
theorem remS32 (rD rA rB : Reg) : Statement (.remS32 rD rA rB) :=
  ⟨Nat.le_of_ble_eq_true rfl, rfl, rfl⟩
theorem shloL32 (rD rA rB : Reg) : Statement (.shloL32 rD rA rB) :=
  ⟨Nat.le_of_ble_eq_true rfl, rfl, rfl⟩
theorem shloR32 (rD rA rB : Reg) : Statement (.shloR32 rD rA rB) :=
  ⟨Nat.le_of_ble_eq_true rfl, rfl, rfl⟩
theorem sharR32 (rD rA rB : Reg) : Statement (.sharR32 rD rA rB) :=
  ⟨Nat.le_of_ble_eq_true rfl, rfl, rfl⟩
theorem add64 (rD rA rB : Reg) : Statement (.add64 rD rA rB) :=
  ⟨Nat.le_of_ble_eq_true rfl, rfl, rfl⟩
theorem sub64 (rD rA rB : Reg) : Statement (.sub64 rD rA rB) :=
  ⟨Nat.le_of_ble_eq_true rfl, rfl, rfl⟩
theorem mul64 (rD rA rB : Reg) : Statement (.mul64 rD rA rB) :=
  ⟨Nat.le_of_ble_eq_true rfl, rfl, rfl⟩
theorem divU64 (rD rA rB : Reg) : Statement (.divU64 rD rA rB) :=
  ⟨Nat.le_of_ble_eq_true rfl, rfl, rfl⟩
theorem divS64 (rD rA rB : Reg) : Statement (.divS64 rD rA rB) :=
  ⟨Nat.le_of_ble_eq_true rfl, rfl, rfl⟩
theorem remU64 (rD rA rB : Reg) : Statement (.remU64 rD rA rB) :=
  ⟨Nat.le_of_ble_eq_true rfl, rfl, rfl⟩
theorem remS64 (rD rA rB : Reg) : Statement (.remS64 rD rA rB) :=
  ⟨Nat.le_of_ble_eq_true rfl, rfl, rfl⟩
theorem shloL64 (rD rA rB : Reg) : Statement (.shloL64 rD rA rB) :=
  ⟨Nat.le_of_ble_eq_true rfl, rfl, rfl⟩
theorem shloR64 (rD rA rB : Reg) : Statement (.shloR64 rD rA rB) :=
  ⟨Nat.le_of_ble_eq_true rfl, rfl, rfl⟩
theorem sharR64 (rD rA rB : Reg) : Statement (.sharR64 rD rA rB) :=
  ⟨Nat.le_of_ble_eq_true rfl, rfl, rfl⟩
theorem and (rD rA rB : Reg) : Statement (.and rD rA rB) :=
  ⟨Nat.le_of_ble_eq_true rfl, rfl, rfl⟩
theorem xor (rD rA rB : Reg) : Statement (.xor rD rA rB) :=
  ⟨Nat.le_of_ble_eq_true rfl, rfl, rfl⟩
theorem or (rD rA rB : Reg) : Statement (.or rD rA rB) :=
  ⟨Nat.le_of_ble_eq_true rfl, rfl, rfl⟩
theorem mulUpperSS (rD rA rB : Reg) : Statement (.mulUpperSS rD rA rB) :=
  ⟨Nat.le_of_ble_eq_true rfl, rfl, rfl⟩
theorem mulUpperUU (rD rA rB : Reg) : Statement (.mulUpperUU rD rA rB) :=
  ⟨Nat.le_of_ble_eq_true rfl, rfl, rfl⟩
theorem mulUpperSU (rD rA rB : Reg) : Statement (.mulUpperSU rD rA rB) :=
  ⟨Nat.le_of_ble_eq_true rfl, rfl, rfl⟩
theorem setLtU (rD rA rB : Reg) : Statement (.setLtU rD rA rB) :=
  ⟨Nat.le_of_ble_eq_true rfl, rfl, rfl⟩
theorem setLtS (rD rA rB : Reg) : Statement (.setLtS rD rA rB) :=
  ⟨Nat.le_of_ble_eq_true rfl, rfl, rfl⟩
theorem cmovIz (rD rA rB : Reg) : Statement (.cmovIz rD rA rB) :=
  ⟨Nat.le_of_ble_eq_true rfl, rfl, rfl⟩
theorem cmovNz (rD rA rB : Reg) : Statement (.cmovNz rD rA rB) :=
  ⟨Nat.le_of_ble_eq_true rfl, rfl, rfl⟩
theorem rotL64 (rD rA rB : Reg) : Statement (.rotL64 rD rA rB) :=
  ⟨Nat.le_of_ble_eq_true rfl, rfl, rfl⟩
theorem rotL32 (rD rA rB : Reg) : Statement (.rotL32 rD rA rB) :=
  ⟨Nat.le_of_ble_eq_true rfl, rfl, rfl⟩
theorem rotR64 (rD rA rB : Reg) : Statement (.rotR64 rD rA rB) :=
  ⟨Nat.le_of_ble_eq_true rfl, rfl, rfl⟩
theorem rotR32 (rD rA rB : Reg) : Statement (.rotR32 rD rA rB) :=
  ⟨Nat.le_of_ble_eq_true rfl, rfl, rfl⟩
theorem andInv (rD rA rB : Reg) : Statement (.andInv rD rA rB) :=
  ⟨Nat.le_of_ble_eq_true rfl, rfl, rfl⟩
theorem orInv (rD rA rB : Reg) : Statement (.orInv rD rA rB) :=
  ⟨Nat.le_of_ble_eq_true rfl, rfl, rfl⟩
theorem xnor (rD rA rB : Reg) : Statement (.xnor rD rA rB) :=
  ⟨Nat.le_of_ble_eq_true rfl, rfl, rfl⟩
theorem max (rD rA rB : Reg) : Statement (.max rD rA rB) :=
  ⟨Nat.le_of_ble_eq_true rfl, rfl, rfl⟩
theorem maxU (rD rA rB : Reg) : Statement (.maxU rD rA rB) :=
  ⟨Nat.le_of_ble_eq_true rfl, rfl, rfl⟩
theorem min (rD rA rB : Reg) : Statement (.min rD rA rB) :=
  ⟨Nat.le_of_ble_eq_true rfl, rfl, rfl⟩
theorem minU (rD rA rB : Reg) : Statement (.minU rD rA rB) :=
  ⟨Nat.le_of_ble_eq_true rfl, rfl, rfl⟩

end OpcodeMapRow

end Sys2Proof.Laws
end

