-- ==== Sys2Proof/Tests/Slice0.lean ====
section
/-! SUPPORT. Tests. Expected values come from spec/: the examples of the instruction rules and the test vectors of
95_test_vectors.md. The witnesses at the end show that the hypotheses of the statements can be met. -/

namespace Sys2Proof.Tests

open Sys2Proof.Machine

/-! ### Helpers -/

/-- A program that is one instruction. -/
def oneInstr (bs : List Byte) : Program :=
  { code := bs, mask := true :: List.replicate (bs.length - 1) false, jumpTable := [] }

/-- A program of one instruction and a fallthrough after it. -/
def thenFallthrough (bs : List Byte) : Program :=
  { code := bs ++ [1], mask := true :: List.replicate (bs.length - 1) false ++ [true], jumpTable := [] }

/-- What the decoder reads from the bytes of one instruction. -/
def decodeOne (bs : List Byte) : Instr × Nat := decode (oneInstr bs) 0#32

/-- The state after reset with this program and memory, these values of r1, r2, r3, and gas 100. -/
def start (p : Program) (m : Memory) (r1 r2 r3 : Word) : State :=
  { ((State.reset.setReg 1 r1).setReg 2 r2).setReg 3 r3 with
    prog := p
    blocks := p.basicBlocks
    mem := m
    gas := 100#64 }

/-- The state after one step, or the same state. -/
def after (s : State) : State :=
  match step s with
  | .next t => t
  | .fault _ => s
  | .refused _ => s

/-- r3 after the operation of an instruction, with r1, r2 and r3 before. -/
def runValue (x : Instr × Word × Word × Word) : Word :=
  match exec x.1 (start (oneInstr []) Memory.fresh x.2.1 x.2.2.1 x.2.2.2) with
  | .next t => t.reg 3
  | .fault _ => 0
  | .refused _ => 0

/-- A memory with these pages and contents, and its heap from 2^30 on. -/
def memory (pages : List (Nat × Page)) (cells : List Host.Cell) : Memory :=
  { pages := pages, cells := cells, sbrk := 0x40000000, vsbrk := 0x40000000, endHeap := 2 ^ 32 }

/-- The memory of the spec's load and store examples: page 4 writeable, with 81 82 83 84 85 86 87 88 at its start. -/
def page4 : Memory :=
  memory [(4, .writeable)]
    [(0x10000, 0x81), (0x10001, 0x82), (0x10002, 0x83), (0x10003, 0x84), (0x10004, 0x85), (0x10005, 0x86),
      (0x10006, 0x87), (0x10007, 0x88)]

/-- A readable page 4 and a VirtualPage 5 with a read-only and a writeable chunk. -/
def mixedMemory : Memory :=
  memory [(4, .readable), (5, .chunked [⟨0, 8, false⟩, ⟨8, 16, true⟩])] [(0x10000, 0x11), (0x14000, 0x22)]

/-- Writeable pages at both ends of the address space. -/
def wrapMemory : Memory :=
  { pages := [(0, .writeable), (262143, .writeable)], cells := [], sbrk := 0x4000, vsbrk := 0x4000, endHeap := 0x4000 }

/-! ### Well-formed instructions: one ill-formed term for each check -/

theorem test_wf_immediate_of_four_bytes : immWellFormed 0xFFFFFFFF80000000#64 = true := by decide
theorem test_wf_oneImm : (Instr.ecalli 0x80000000#64).wellFormed = false := by decide
theorem test_wf_twoImms_first : (Instr.storeImmU8 0x100000000#64 0#64).wellFormed = false := by decide
theorem test_wf_twoImms_second : (Instr.storeImmU8 0#64 0xFFFFFFFF7FFFFFFF#64).wellFormed = false := by decide
theorem test_wf_regImm : (Instr.loadImm 1 0x123456789#64).wellFormed = false := by decide
theorem test_wf_regTwoImms_first : (Instr.storeImmIndU8 1 0x80000000#64 0#64).wellFormed = false := by decide
theorem test_wf_regTwoImms_second : (Instr.storeImmIndU8 1 0#64 0x80000000#64).wellFormed = false := by decide
theorem test_wf_regImmOffset : (Instr.loadImmJump 1 0x80000000#64 0#32).wellFormed = false := by decide
theorem test_wf_twoRegsImm : (Instr.addImm64 1 2 0x80000000#64).wellFormed = false := by decide
theorem test_wf_twoRegsTwoImms_first : (Instr.loadImmJumpInd 1 2 0x80000000#64 0#64).wellFormed = false := by decide
theorem test_wf_twoRegsTwoImms_second : (Instr.loadImmJumpInd 1 2 0#64 0x80000000#64).wellFormed = false := by decide
theorem test_wf_regExtImm_any : (Instr.loadImm64 1 0x123456789ABCDEF0#64).wellFormed = true := by decide

/-! ### Decoding: for every constructor, the bytes of the spec's own example of it, one byte at a time (the rules of
41 to 46, "Example"), and the instruction and argument-byte count they stand for -/

/-- Spec examples of 41_arithmetic.md. -/
theorem test_decode_arithmetic_1 : ([
    [0x83, 0x13, 0x01],
    [0x87, 0x13, 0xFF],
    [0x8D, 0x13],
    [0x95, 0x13, 0x01],
    [0x96, 0x13, 0x04],
    [0x9A, 0x13, 0x03],
    [0xBE, 0x21, 0x03],
    [0xBF, 0x21, 0x03],
    [0xC0, 0x21, 0x03],
    [0xC1, 0x21, 0x03]].map decodeOne) = [
    (.addImm32 3 1 1#64, 2),
    (.mulImm32 3 1 0xFFFFFFFFFFFFFFFF#64, 2),
    (.negAddImm32 3 1 0#64, 1),
    (.addImm64 3 1 1#64, 2),
    (.mulImm64 3 1 4#64, 2),
    (.negAddImm64 3 1 3#64, 2),
    (.add32 3 1 2, 2),
    (.sub32 3 1 2, 2),
    (.mul32 3 1 2, 2),
    (.divU32 3 1 2, 2)] := by decide

/-- Spec examples of 41_arithmetic.md. -/
theorem test_decode_arithmetic_2 : ([
    [0xC2, 0x21, 0x03],
    [0xC3, 0x21, 0x03],
    [0xC4, 0x21, 0x03],
    [0xC8, 0x21, 0x03],
    [0xC9, 0x21, 0x03],
    [0xCA, 0x21, 0x03],
    [0xCB, 0x21, 0x03],
    [0xCC, 0x21, 0x03],
    [0xCD, 0x21, 0x03],
    [0xCE, 0x21, 0x03]].map decodeOne) = [
    (.divS32 3 1 2, 2),
    (.remU32 3 1 2, 2),
    (.remS32 3 1 2, 2),
    (.add64 3 1 2, 2),
    (.sub64 3 1 2, 2),
    (.mul64 3 1 2, 2),
    (.divU64 3 1 2, 2),
    (.divS64 3 1 2, 2),
    (.remU64 3 1 2, 2),
    (.remS64 3 1 2, 2)] := by decide

/-- Spec examples of 41_arithmetic.md. -/
theorem test_decode_arithmetic_3 : ([
    [0xD5, 0x21, 0x03],
    [0xD6, 0x21, 0x03],
    [0xD7, 0x21, 0x03],
    [0xE3, 0x21, 0x03],
    [0xE4, 0x21, 0x03],
    [0xE5, 0x21, 0x03],
    [0xE6, 0x21, 0x03]].map decodeOne) = [
    (.mulUpperSS 3 1 2, 2),
    (.mulUpperUU 3 1 2, 2),
    (.mulUpperSU 3 1 2, 2),
    (.max 3 1 2, 2),
    (.maxU 3 1 2, 2),
    (.min 3 1 2, 2),
    (.minU 3 1 2, 2)] := by decide

/-- Spec examples of 42_bitwise_shift.md. -/
theorem test_decode_bitwise_1 : ([
    [0x66, 0x13],
    [0x67, 0x13],
    [0x68, 0x13],
    [0x69, 0x13],
    [0x6A, 0x13],
    [0x6B, 0x13],
    [0x6C, 0x13],
    [0x6D, 0x13],
    [0x6E, 0x13],
    [0x6F, 0x13]].map decodeOne) = [
    (.countSetBits64 3 1, 1),
    (.countSetBits32 3 1, 1),
    (.leadingZeroBits64 3 1, 1),
    (.leadingZeroBits32 3 1, 1),
    (.trailingZeroBits64 3 1, 1),
    (.trailingZeroBits32 3 1, 1),
    (.signExtend8 3 1, 1),
    (.signExtend16 3 1, 1),
    (.zeroExtend16 3 1, 1),
    (.reverseBytes 3 1, 1)] := by decide

/-- Spec examples of 42_bitwise_shift.md. -/
theorem test_decode_bitwise_2 : ([
    [0x84, 0x13, 0xF0],
    [0x85, 0x13, 0xFF],
    [0x86, 0x13, 0x01],
    [0x8A, 0x13, 0x1F],
    [0x8B, 0x13, 0x04],
    [0x8C, 0x13, 0x1F],
    [0x90, 0x13, 0x01],
    [0x91, 0x13, 0x00, 0x01],
    [0x92, 0x13, 0x00, 0xFF],
    [0x97, 0x13, 0x3F]].map decodeOne) = [
    (.andImm 3 1 0xFFFFFFFFFFFFFFF0#64, 2),
    (.xorImm 3 1 0xFFFFFFFFFFFFFFFF#64, 2),
    (.orImm 3 1 1#64, 2),
    (.shloLImm32 3 1 0x1F#64, 2),
    (.shloRImm32 3 1 4#64, 2),
    (.sharRImm32 3 1 0x1F#64, 2),
    (.shloLImmAlt32 3 1 1#64, 2),
    (.shloRImmAlt32 3 1 0x100#64, 3),
    (.sharRImmAlt32 3 1 0xFFFFFFFFFFFFFF00#64, 3),
    (.shloLImm64 3 1 0x3F#64, 2)] := by decide

/-- Spec examples of 42_bitwise_shift.md. -/
theorem test_decode_bitwise_3 : ([
    [0x98, 0x13, 0x3C],
    [0x99, 0x13, 0x3C],
    [0x9B, 0x13, 0x03],
    [0x9C, 0x13, 0xFE],
    [0x9D, 0x13, 0xFE],
    [0x9E, 0x13, 0x01],
    [0x9F, 0x13, 0x10],
    [0xA0, 0x13, 0x01],
    [0xA1, 0x13, 0x01],
    [0xC5, 0x21, 0x03]].map decodeOne) = [
    (.shloRImm64 3 1 0x3C#64, 2),
    (.sharRImm64 3 1 0x3C#64, 2),
    (.shloLImmAlt64 3 1 3#64, 2),
    (.shloRImmAlt64 3 1 0xFFFFFFFFFFFFFFFE#64, 2),
    (.sharRImmAlt64 3 1 0xFFFFFFFFFFFFFFFE#64, 2),
    (.rotR64Imm 3 1 1#64, 2),
    (.rotR64ImmAlt 3 1 0x10#64, 2),
    (.rotR32Imm 3 1 1#64, 2),
    (.rotR32ImmAlt 3 1 1#64, 2),
    (.shloL32 3 1 2, 2)] := by decide

/-- Spec examples of 42_bitwise_shift.md. -/
theorem test_decode_bitwise_4 : ([
    [0xC6, 0x21, 0x03],
    [0xC7, 0x21, 0x03],
    [0xCF, 0x21, 0x03],
    [0xD0, 0x21, 0x03],
    [0xD1, 0x21, 0x03],
    [0xD2, 0x21, 0x03],
    [0xD3, 0x21, 0x03],
    [0xD4, 0x21, 0x03],
    [0xDC, 0x21, 0x03],
    [0xDD, 0x21, 0x03]].map decodeOne) = [
    (.shloR32 3 1 2, 2),
    (.sharR32 3 1 2, 2),
    (.shloL64 3 1 2, 2),
    (.shloR64 3 1 2, 2),
    (.sharR64 3 1 2, 2),
    (.and 3 1 2, 2),
    (.xor 3 1 2, 2),
    (.or 3 1 2, 2),
    (.rotL64 3 1 2, 2),
    (.rotL32 3 1 2, 2)] := by decide

/-- Spec examples of 42_bitwise_shift.md. -/
theorem test_decode_bitwise_5 : ([
    [0xDE, 0x21, 0x03],
    [0xDF, 0x21, 0x03],
    [0xE0, 0x21, 0x03],
    [0xE1, 0x21, 0x03],
    [0xE2, 0x21, 0x03]].map decodeOne) = [
    (.rotR64 3 1 2, 2),
    (.rotR32 3 1 2, 2),
    (.andInv 3 1 2, 2),
    (.orInv 3 1 2, 2),
    (.xnor 3 1 2, 2)] := by decide

/-- Spec examples of 43_compare_move.md. -/
theorem test_decode_compare_move_1 : ([
    [0x14, 0x03, 0xEF, 0xCD, 0xAB, 0x89, 0x67, 0x45, 0x23, 0x01],
    [0x33, 0x03, 0xFF],
    [0x64, 0x13],
    [0x88, 0x13, 0xFF],
    [0x89, 0x13, 0xFF],
    [0x8E, 0x13, 0xFE],
    [0x8F, 0x13, 0xFF],
    [0x93, 0x13, 0x07],
    [0x94, 0x13, 0x07],
    [0xD8, 0x21, 0x03]].map decodeOne) = [
    (.loadImm64 3 0x123456789ABCDEF#64, 9),
    (.loadImm 3 0xFFFFFFFFFFFFFFFF#64, 2),
    (.moveReg 3 1, 1),
    (.setLtUImm 3 1 0xFFFFFFFFFFFFFFFF#64, 2),
    (.setLtSImm 3 1 0xFFFFFFFFFFFFFFFF#64, 2),
    (.setGtUImm 3 1 0xFFFFFFFFFFFFFFFE#64, 2),
    (.setGtSImm 3 1 0xFFFFFFFFFFFFFFFF#64, 2),
    (.cmovIzImm 3 1 7#64, 2),
    (.cmovNzImm 3 1 7#64, 2),
    (.setLtU 3 1 2, 2)] := by decide

/-- Spec examples of 43_compare_move.md. -/
theorem test_decode_compare_move_2 : ([
    [0xD9, 0x21, 0x03],
    [0xDA, 0x21, 0x03],
    [0xDB, 0x21, 0x03]].map decodeOne) = [
    (.setLtS 3 1 2, 2),
    (.cmovIz 3 1 2, 2),
    (.cmovNz 3 1 2, 2)] := by decide

/-- Spec examples of 44_load_store.md. -/
theorem test_decode_load_store_1 : ([
    [0x1E, 0x03, 0x00, 0x00, 0x01, 0x12],
    [0x1F, 0x03, 0x00, 0x00, 0x01, 0x34, 0x12],
    [0x20, 0x03, 0x00, 0x00, 0x01, 0x78, 0x56, 0x34, 0x12],
    [0x21, 0x03, 0x00, 0x00, 0x01, 0xFF],
    [0x34, 0x03, 0x00, 0x00, 0x01],
    [0x35, 0x03, 0x00, 0x00, 0x01],
    [0x36, 0x03, 0x00, 0x00, 0x01],
    [0x37, 0x03, 0x00, 0x00, 0x01],
    [0x38, 0x03, 0x00, 0x00, 0x01],
    [0x39, 0x03, 0x00, 0x00, 0x01]].map decodeOne) = [
    (.storeImmU8 0x10000#64 0x12#64, 5),
    (.storeImmU16 0x10000#64 0x1234#64, 6),
    (.storeImmU32 0x10000#64 0x12345678#64, 8),
    (.storeImmU64 0x10000#64 0xFFFFFFFFFFFFFFFF#64, 5),
    (.loadU8 3 0x10000#64, 4),
    (.loadI8 3 0x10000#64, 4),
    (.loadU16 3 0x10000#64, 4),
    (.loadI16 3 0x10000#64, 4),
    (.loadU32 3 0x10000#64, 4),
    (.loadI32 3 0x10000#64, 4)] := by decide

/-- Spec examples of 44_load_store.md. -/
theorem test_decode_load_store_2 : ([
    [0x3A, 0x03, 0x00, 0x00, 0x01],
    [0x3B, 0x01, 0x00, 0x00, 0x01],
    [0x3C, 0x01, 0x00, 0x00, 0x01],
    [0x3D, 0x01, 0x00, 0x00, 0x01],
    [0x3E, 0x01, 0x00, 0x00, 0x01],
    [0x46, 0x11, 0x01, 0xAB, 0x00],
    [0x47, 0x11, 0x01, 0xCD, 0xAB, 0x00],
    [0x48, 0x11, 0x01, 0x01, 0xEF, 0xCD, 0x7B],
    [0x49, 0x11, 0x01, 0x01, 0xEF, 0xCD, 0x7B],
    [0x78, 0x21]].map decodeOne) = [
    (.loadU64 3 0x10000#64, 4),
    (.storeU8 1 0x10000#64, 4),
    (.storeU16 1 0x10000#64, 4),
    (.storeU32 1 0x10000#64, 4),
    (.storeU64 1 0x10000#64, 4),
    (.storeImmIndU8 1 1#64 0xAB#64, 4),
    (.storeImmIndU16 1 1#64 0xABCD#64, 5),
    (.storeImmIndU32 1 1#64 0x7BCDEF01#64, 6),
    (.storeImmIndU64 1 1#64 0x7BCDEF01#64, 6),
    (.storeIndU8 1 2 0#64, 1)] := by decide

/-- Spec examples of 44_load_store.md. -/
theorem test_decode_load_store_3 : ([
    [0x79, 0x21],
    [0x7A, 0x21],
    [0x7B, 0x21],
    [0x7C, 0x13, 0x10],
    [0x7D, 0x13, 0x10],
    [0x7E, 0x13, 0x10],
    [0x7F, 0x13, 0x10],
    [0x80, 0x13, 0x10],
    [0x81, 0x13, 0x10],
    [0x82, 0x13, 0x10]].map decodeOne) = [
    (.storeIndU16 1 2 0#64, 1),
    (.storeIndU32 1 2 0#64, 1),
    (.storeIndU64 1 2 0#64, 1),
    (.loadIndU8 3 1 0x10#64, 2),
    (.loadIndI8 3 1 0x10#64, 2),
    (.loadIndU16 3 1 0x10#64, 2),
    (.loadIndI16 3 1 0x10#64, 2),
    (.loadIndU32 3 1 0x10#64, 2),
    (.loadIndI32 3 1 0x10#64, 2),
    (.loadIndU64 3 1 0x10#64, 2)] := by decide

/-- Spec examples of 45_control.md. -/
theorem test_decode_control_1 : ([
    [0x00],
    [0x01],
    [0x28, 0x02],
    [0x32, 0x01],
    [0x50, 0x13, 0x2A, 0x04],
    [0x51, 0x11, 0x05, 0x04],
    [0x52, 0x11, 0x06, 0x04],
    [0x53, 0x11, 0xFF, 0x04],
    [0x54, 0x11, 0x05, 0x04],
    [0x55, 0x11, 0x01, 0x04]].map decodeOne) = [
    (.trap, 0),
    (.fallthrough, 0),
    (.jump 2#32, 1),
    (.jumpInd 1 0#64, 1),
    (.loadImmJump 3 0x2A#64 4#32, 3),
    (.branchEqImm 1 5#64 4#32, 3),
    (.branchNeImm 1 6#64 4#32, 3),
    (.branchLtUImm 1 0xFFFFFFFFFFFFFFFF#64 4#32, 3),
    (.branchLeUImm 1 5#64 4#32, 3),
    (.branchGeUImm 1 1#64 4#32, 3)] := by decide

/-- Spec examples of 45_control.md. -/
theorem test_decode_control_2 : ([
    [0x56, 0x11, 0x01, 0x04],
    [0x57, 0x11, 0x01, 0x04],
    [0x58, 0x11, 0xFF, 0x04],
    [0x59, 0x11, 0xFF, 0x04],
    [0x5A, 0x11, 0xFF, 0x04],
    [0xAA, 0x21, 0x03],
    [0xAB, 0x21, 0x03],
    [0xAC, 0x21, 0x03],
    [0xAD, 0x21, 0x03],
    [0xAE, 0x21, 0x03]].map decodeOne) = [
    (.branchGtUImm 1 1#64 4#32, 3),
    (.branchLtSImm 1 1#64 4#32, 3),
    (.branchLeSImm 1 0xFFFFFFFFFFFFFFFF#64 4#32, 3),
    (.branchGeSImm 1 0xFFFFFFFFFFFFFFFF#64 4#32, 3),
    (.branchGtSImm 1 0xFFFFFFFFFFFFFFFF#64 4#32, 3),
    (.branchEq 1 2 3#32, 2),
    (.branchNe 1 2 3#32, 2),
    (.branchLtU 1 2 3#32, 2),
    (.branchLtS 1 2 3#32, 2),
    (.branchGeU 1 2 3#32, 2)] := by decide

/-- Spec examples of 45_control.md. -/
theorem test_decode_control_3 : ([
    [0xAF, 0x21, 0x03],
    [0xB4, 0x13, 0x01, 0x2A]].map decodeOne) = [
    (.branchGeS 1 2 3#32, 2),
    (.loadImmJumpInd 3 1 0x2A#64 0#64, 3)] := by decide

/-- Spec examples of 46_system.md. -/
theorem test_decode_system : ([
    [0x0A, 0x05],
    [0x65, 0x13]].map decodeOne) = [
    (.ecalli 5#64, 1),
    (.sbrk 3 1, 1)] := by decide

/-! ### The value instructions: the destination r3 in the spec's own example of each -/

/-- Spec examples of 41_arithmetic.md: the instruction with r1, r2 and r3 before. -/
theorem test_run_arithmetic_1 : ([
    (.addImm32 3 1 1#64, 0xFFFFFFFF, 0x0, 0x0),
    (.mulImm32 3 1 0xFFFFFFFFFFFFFFFF#64, 0x3, 0x0, 0x0),
    (.negAddImm32 3 1 0#64, 0x1, 0x0, 0x0),
    (.addImm64 3 1 1#64, 0xFFFFFFFFFFFFFFFF, 0x0, 0x0),
    (.mulImm64 3 1 4#64, 0x4000000000000000, 0x0, 0x0),
    (.negAddImm64 3 1 3#64, 0x5, 0x0, 0x0),
    (.add32 3 1 2, 0x7FFFFFFF, 0x1, 0x0),
    (.sub32 3 1 2, 0x0, 0x1, 0x0),
    (.mul32 3 1 2, 0x10000, 0x10000, 0x0),
    (.divU32 3 1 2, 0x7, 0x0, 0x0)].map runValue) = [
    0x0, 0xFFFFFFFFFFFFFFFD, 0xFFFFFFFFFFFFFFFF, 0x0, 0x0, 0xFFFFFFFFFFFFFFFE, 0xFFFFFFFF80000000, 0xFFFFFFFFFFFFFFFF, 0x0, 0xFFFFFFFFFFFFFFFF] := by decide

/-- Spec examples of 41_arithmetic.md: the instruction with r1, r2 and r3 before. -/
theorem test_run_arithmetic_2 : ([
    (.divS32 3 1 2, 0x80000000, 0xFFFFFFFF, 0x0),
    (.remU32 3 1 2, 0x7, 0x3, 0x0),
    (.remS32 3 1 2, 0xFFFFFFFFFFFFFFF9, 0x2, 0x0),
    (.add64 3 1 2, 0xFFFFFFFFFFFFFFFF, 0x1, 0x0),
    (.sub64 3 1 2, 0x0, 0x1, 0x0),
    (.mul64 3 1 2, 0x100000000, 0x100000000, 0x0),
    (.divU64 3 1 2, 0x64, 0x7, 0x0),
    (.divS64 3 1 2, 0x8000000000000000, 0xFFFFFFFFFFFFFFFF, 0x0),
    (.remU64 3 1 2, 0x5, 0x0, 0x0),
    (.remS64 3 1 2, 0x8000000000000000, 0xFFFFFFFFFFFFFFFF, 0x0)].map runValue) = [
    0xFFFFFFFF80000000, 0x1, 0xFFFFFFFFFFFFFFFF, 0x0, 0xFFFFFFFFFFFFFFFF, 0x0, 0xE, 0x8000000000000000, 0x5, 0x0] := by decide

/-- Spec examples of 41_arithmetic.md: the instruction with r1, r2 and r3 before. -/
theorem test_run_arithmetic_3 : ([
    (.mulUpperSS 3 1 2, 0xFFFFFFFFFFFFFFFF, 0x2, 0x0),
    (.mulUpperUU 3 1 2, 0xFFFFFFFFFFFFFFFF, 0x2, 0x0),
    (.mulUpperSU 3 1 2, 0xFFFFFFFFFFFFFFFF, 0x2, 0x0),
    (.max 3 1 2, 0xFFFFFFFFFFFFFFFF, 0x1, 0x0),
    (.maxU 3 1 2, 0xFFFFFFFFFFFFFFFF, 0x1, 0x0),
    (.min 3 1 2, 0xFFFFFFFFFFFFFFFF, 0x1, 0x0),
    (.minU 3 1 2, 0xFFFFFFFFFFFFFFFF, 0x1, 0x0)].map runValue) = [
    0xFFFFFFFFFFFFFFFF, 0x1, 0xFFFFFFFFFFFFFFFF, 0x1, 0xFFFFFFFFFFFFFFFF, 0xFFFFFFFFFFFFFFFF, 0x1] := by decide

/-- Spec examples of 42_bitwise_shift.md: the instruction with r1, r2 and r3 before. -/
theorem test_run_bitwise_1 : ([
    (.countSetBits64 3 1, 0xFFFFFFFFFFFFFFFF, 0x0, 0x0),
    (.countSetBits32 3 1, 0xFFFFFFFFFFFFFFFF, 0x0, 0x0),
    (.leadingZeroBits64 3 1, 0x1, 0x0, 0x0),
    (.leadingZeroBits32 3 1, 0x0, 0x0, 0x0),
    (.trailingZeroBits64 3 1, 0x0, 0x0, 0x0),
    (.trailingZeroBits32 3 1, 0x100000000, 0x0, 0x0),
    (.signExtend8 3 1, 0x80, 0x0, 0x0),
    (.signExtend16 3 1, 0x12347FFF, 0x0, 0x0),
    (.zeroExtend16 3 1, 0xFFFFFFFFFFFFFFFF, 0x0, 0x0),
    (.reverseBytes 3 1, 0x102030405060708, 0x0, 0x0)].map runValue) = [
    0x40, 0x20, 0x3F, 0x20, 0x40, 0x20, 0xFFFFFFFFFFFFFF80, 0x7FFF, 0xFFFF, 0x807060504030201] := by decide

/-- Spec examples of 42_bitwise_shift.md: the instruction with r1, r2 and r3 before. -/
theorem test_run_bitwise_2 : ([
    (.andImm 3 1 0xFFFFFFFFFFFFFFF0#64, 0x123456789ABCDEFF, 0x0, 0x0),
    (.xorImm 3 1 0xFFFFFFFFFFFFFFFF#64, 0x0, 0x0, 0x0),
    (.orImm 3 1 1#64, 0x100, 0x0, 0x0),
    (.shloLImm32 3 1 0x1F#64, 0x1, 0x0, 0x0),
    (.shloRImm32 3 1 4#64, 0xFFFFFFFF00000010, 0x0, 0x0),
    (.sharRImm32 3 1 0x1F#64, 0x80000000, 0x0, 0x0),
    (.shloLImmAlt32 3 1 1#64, 0x4, 0x0, 0x0),
    (.shloRImmAlt32 3 1 0x100#64, 0x4, 0x0, 0x0),
    (.sharRImmAlt32 3 1 0xFFFFFFFFFFFFFF00#64, 0x4, 0x0, 0x0),
    (.shloLImm64 3 1 0x3F#64, 0x1, 0x0, 0x0)].map runValue) = [
    0x123456789ABCDEF0, 0xFFFFFFFFFFFFFFFF, 0x101, 0xFFFFFFFF80000000, 0x1, 0xFFFFFFFFFFFFFFFF, 0x10, 0x10, 0xFFFFFFFFFFFFFFF0, 0x8000000000000000] := by decide

/-- Spec examples of 42_bitwise_shift.md: the instruction with r1, r2 and r3 before. -/
theorem test_run_bitwise_3 : ([
    (.shloRImm64 3 1 0x3C#64, 0xFFFFFFFFFFFFFFFF, 0x0, 0x0),
    (.sharRImm64 3 1 0x3C#64, 0x8000000000000000, 0x0, 0x0),
    (.shloLImmAlt64 3 1 3#64, 0x41, 0x0, 0x0),
    (.shloRImmAlt64 3 1 0xFFFFFFFFFFFFFFFE#64, 0x1, 0x0, 0x0),
    (.sharRImmAlt64 3 1 0xFFFFFFFFFFFFFFFE#64, 0x1, 0x0, 0x0),
    (.rotR64Imm 3 1 1#64, 0x1, 0x0, 0x0),
    (.rotR64ImmAlt 3 1 0x10#64, 0x4, 0x0, 0x0),
    (.rotR32Imm 3 1 1#64, 0x100000002, 0x0, 0x0),
    (.rotR32ImmAlt 3 1 1#64, 0x1, 0x0, 0x0),
    (.shloL32 3 1 2, 0x1, 0x21, 0x0)].map runValue) = [
    0xF, 0xFFFFFFFFFFFFFFF8, 0x6, 0x7FFFFFFFFFFFFFFF, 0xFFFFFFFFFFFFFFFF, 0x8000000000000000, 0x1, 0x1, 0xFFFFFFFF80000000, 0x2] := by decide

/-- Spec examples of 42_bitwise_shift.md: the instruction with r1, r2 and r3 before. -/
theorem test_run_bitwise_4 : ([
    (.shloR32 3 1 2, 0x80000000, 0x0, 0x0),
    (.sharR32 3 1 2, 0x80000000, 0x4, 0x0),
    (.shloL64 3 1 2, 0x1, 0x41, 0x0),
    (.shloR64 3 1 2, 0x8000000000000000, 0x3F, 0x0),
    (.sharR64 3 1 2, 0x8000000000000000, 0x3F, 0x0),
    (.and 3 1 2, 0xF0F0, 0xFF00, 0x0),
    (.xor 3 1 2, 0xF0F0, 0xFF00, 0x0),
    (.or 3 1 2, 0xF0F0, 0xFF00, 0x0),
    (.rotL64 3 1 2, 0x8000000000000000, 0x1, 0x0),
    (.rotL32 3 1 2, 0x80000000, 0x1, 0x0)].map runValue) = [
    0xFFFFFFFF80000000, 0xFFFFFFFFF8000000, 0x2, 0x1, 0xFFFFFFFFFFFFFFFF, 0xF000, 0xFF0, 0xFFF0, 0x1, 0x1] := by decide

/-- Spec examples of 42_bitwise_shift.md: the instruction with r1, r2 and r3 before. -/
theorem test_run_bitwise_5 : ([
    (.rotR64 3 1 2, 0x1, 0x1, 0x0),
    (.rotR32 3 1 2, 0x1, 0x1, 0x0),
    (.andInv 3 1 2, 0xFF, 0xF, 0x0),
    (.orInv 3 1 2, 0x0, 0xFFFFFFFFFFFFFFFF, 0x0),
    (.xnor 3 1 2, 0x5, 0x5, 0x0)].map runValue) = [
    0x8000000000000000, 0xFFFFFFFF80000000, 0xF0, 0x0, 0xFFFFFFFFFFFFFFFF] := by decide

/-- Spec examples of 43_compare_move.md: the instruction with r1, r2 and r3 before. -/
theorem test_run_compare_move_1 : ([
    (.loadImm64 3 0x123456789ABCDEF#64, 0x0, 0x0, 0x0),
    (.loadImm 3 0xFFFFFFFFFFFFFFFF#64, 0x0, 0x0, 0x0),
    (.moveReg 3 1, 0xDEADBEEF, 0x0, 0x0),
    (.setLtUImm 3 1 0xFFFFFFFFFFFFFFFF#64, 0x5, 0x0, 0x0),
    (.setLtSImm 3 1 0xFFFFFFFFFFFFFFFF#64, 0x5, 0x0, 0x0),
    (.setGtUImm 3 1 0xFFFFFFFFFFFFFFFE#64, 0xFFFFFFFFFFFFFFFF, 0x0, 0x0),
    (.setGtSImm 3 1 0xFFFFFFFFFFFFFFFF#64, 0x0, 0x0, 0x0),
    (.cmovIzImm 3 1 7#64, 0x0, 0x0, 0x9),
    (.cmovNzImm 3 1 7#64, 0x0, 0x0, 0x9),
    (.setLtU 3 1 2, 0x1, 0xFFFFFFFFFFFFFFFF, 0x0)].map runValue) = [
    0x123456789ABCDEF, 0xFFFFFFFFFFFFFFFF, 0xDEADBEEF, 0x1, 0x0, 0x1, 0x1, 0x7, 0x9, 0x1] := by decide

/-- Spec examples of 43_compare_move.md: the instruction with r1, r2 and r3 before. -/
theorem test_run_compare_move_2 : ([
    (.setLtS 3 1 2, 0x1, 0xFFFFFFFFFFFFFFFF, 0x0),
    (.cmovIz 3 1 2, 0x5, 0x0, 0x9),
    (.cmovNz 3 1 2, 0x5, 0x0, 0x9)].map runValue) = [
    0x0, 0x5, 0x9] := by decide

/-! ### Decoding and encoding corners -/

/-- R86: nibbles and register bytes above 12 select r12. -/
theorem test_decode_register_clamp : decodeOne [0xBE, 0xFD, 0xFF] = (.add32 12 12 12, 2) := by decide
/-- R92: a length field above 4 clamps to 4, and a field past the end of code reads 0. -/
theorem test_decode_length_clamp : decodeOne [30, 7, 1, 2, 3, 4] = (.storeImmU8 0x04030201#64 0#64, 5) := by decide
/-- R88: no offset bytes, so the jump targets itself. -/
theorem test_decode_jump_without_offset : decodeOne [40] = (.jump 0#32, 0) := by decide
/-- R88: a one-byte offset of -3 from offset 3. -/
theorem test_decode_backward_jump :
    decode { code := [1, 1, 1, 40, 0xFD], mask := [true, true, true, true, false], jumpTable := [] } 3#32
      = (.jump 0#32, 1) := by decide
/-- R104: an unassigned opcode is a trap. -/
theorem test_decode_unassigned : [2, 255].map (fun b => decodeOne [b]) = [(.trap, 0), (.trap, 0)] := by decide
/-- R83, R110: past the end of code stands a trap. -/
theorem test_decode_past_end : decode (oneInstr []) 7#32 = (.trap, 0) := by decide
/-- R84: at most 24 argument bytes, whatever the mask says. -/
theorem test_skip_cap : ((oneInstr (List.replicate 30 0)).skip 0, (oneInstr (List.replicate 25 0)).skip 0) = (24, 24) := by
  decide
/-- The encoder writes the bytes of the rules' layouts, with four bytes for each variable-length field (R89 to R101). -/
theorem test_encode_layouts :
    [Instr.trap, .ecalli 5#64, .loadImm64 3 0x123456789ABCDEF#64, .storeImmU8 0x10000#64 0x12#64, .addImm32 3 1 1#64,
      .loadImmJump 3 42#64 4#32, .loadImmJumpInd 3 1 42#64 0#64, .add32 3 1 2, .moveReg 3 1, .branchEq 3 1 4#32].map
        (encode 0#32) =
      [[0], [10, 5, 0, 0, 0], [20, 3, 0xEF, 0xCD, 0xAB, 0x89, 0x67, 0x45, 0x23, 1],
        [30, 4, 0, 0, 1, 0, 0x12, 0, 0, 0], [0x83, 0x13, 1, 0, 0, 0], [80, 0x43, 42, 0, 0, 0, 4, 0, 0, 0],
        [180, 0x13, 4, 42, 0, 0, 0, 0, 0, 0, 0], [0xBE, 0x21, 3], [100, 0x13], [170, 0x13, 4, 0, 0, 0]] := by decide
/-- The host's reading of a table word, and the fetch of it. -/
theorem test_table_word :
    decodeTableWord 8 0xBE = some (.add32 0 0 0) ∧
      (State.reset.withFetchWord 8 0xBE).fetch.1 = .add32 0 0 0 := by decide

/-! ### Steps -/

/-- R254: PANIC, pc at the trap, one gas unit. -/
theorem test_step_trap :
    let t := after (start (oneInstr [0]) Memory.fresh 0 0 0)
    (t.status, t.exitParam, t.pc, t.gas) = (.panic, none, 0#32, 99#64) := by decide
/-- R278, R291: HOST with the index and pc at NEXT; the next step runs the instruction there. -/
theorem test_step_ecalli :
    let t := after (start (thenFallthrough [10, 5]) Memory.fresh 0 0 0)
    (t.status, t.exitParam, t.pc, t.gas) = (.host, some 5#32, 2#32, 99#64) ∧
      ((after t).status, (after t).exitParam, (after t).pc) = (.ok, none, 3#32) := by decide
/-- R111: without gas OOG, and nothing else. -/
theorem test_step_out_of_gas :
    let t := after { start (oneInstr [0]) Memory.fresh 0 0 0 with gas := 0#64 }
    (t.status, t.exitParam, t.pc, t.gas) = (.oog, none, 0#32, 0#64) := by decide
/-- R113: a page fault charges a second unit; here it underflows and the status stays PANIC. -/
theorem test_step_fault_gas :
    let t := after { start (oneInstr [52, 3, 0, 0, 2]) page4 0 0 0 with gas := 1#64 }
    (t.status, t.exitParam, t.pc, t.gas) = (.panic, some 0x20000#32, 0#32, 0#64) := by decide
/-- R256: a jump to an offset that is no block start is PANIC with pc unchanged. -/
theorem test_step_bad_jump :
    let t := after (start { code := [40, 2, 2], mask := [true, false, false], jumpTable := [] } Memory.fresh 0 0 0)
    (t.status, t.pc) = (.panic, 0#32) := by decide
/-- R258: the register write of load_imm_jump, and its jump (spec example). -/
theorem test_step_load_imm_jump :
    let t := after (start (thenFallthrough [80, 0x13, 0x2A, 4]) Memory.fresh 0 0 0)
    (t.reg 3, t.pc, t.blocks) = (0x2A#64, 4#32, [0, 4]) := by decide
/-- R259: the table entry, with the base read before the write (spec example). -/
theorem test_step_load_imm_jump_ind :
    let t := after (start { thenFallthrough [0xB4, 0x13, 1, 0x2A] with jumpTable := [4#32] } Memory.fresh 2 0 0)
    (t.reg 3, t.pc) = (0x2A#64, 4#32) := by decide
/-- R252: the sentinel halts; zero, an odd address and an index past the table are PANIC. -/
theorem test_step_jump_ind :
    ([0xFFFF0000#64, 0#64, 1#64, 4#64].map (fun v =>
      (after (start { oneInstr [50, 1] with jumpTable := [0#32] } Memory.fresh v 0 0)).status)) =
      [.halt, .panic, .panic, .panic] := by decide
/-- R260, R251: taken, and not taken with a bad target. -/
theorem test_step_branch_eq_imm :
    ([1#64, 2#64].map (fun v => (after (start (thenFallthrough [81, 0x11, 1, 4]) Memory.fresh v 0 0)).pc)) = [4#32, 4#32] ∧
    ([1#64, 2#64].map (fun v => (after (start (oneInstr [81, 0x11, 1, 2]) Memory.fresh v 0 0)).status)) =
      [.panic, .ok] := by decide
/-- R222: sign extension of a loaded byte. -/
theorem test_step_load_i8 :
    (after (start (oneInstr [53, 3, 0, 0, 1]) page4 0 0 0)).reg 3 = 0xFFFFFFFFFFFFFF81#64 := by decide
/-- R234: eight bytes at the old base plus the immediate. -/
theorem test_step_load_ind_u64 :
    (after (start (oneInstr [130, 0x11, 0x10]) page4 0xFFF0 0 0)).reg 1 = 0x8887868584838281#64 := by decide
/-- R242: the value and the base can be one register. -/
theorem test_step_store_ind_u64 :
    (after (start (oneInstr [123, 0x11, 1]) page4 0x10000 0 0)).mem.cells =
      [(0x10000, 0x81), (0x10003, 0x01)] := by decide
/-- R65: a store that faults on its second page leaves the first page written. -/
theorem test_step_split_store :
    let t := after (start (oneInstr [123, 0x21]) page4 0x1122334455667788 0x13FFE 0)
    (t.status, t.exitParam, t.gas, t.mem.val 0x13FFE, t.mem.val 0x13FFF) =
      (.panic, some 0x14000#32, 98#64, 0x88, 0x77) := by decide
/-- R77: a read-only page and a read-only chunk refuse a store; a writeable chunk takes it. -/
theorem test_step_store_permissions :
    ([0x10000#64, 0x14007#64, 0x14008#64, 0x14010#64].map (fun a =>
      (after (start (oneInstr [120, 0x21]) mixedMemory 5 a 0)).exitParam)) =
      [some 0x10000#32, some 0x14007#32, none, some 0x14010#32] := by decide
/-- R53: an access wraps past the top of the address space. -/
theorem test_step_store_wraps :
    (after (start (oneInstr [121, 0x21]) wrapMemory 0x2211 0xFFFFFFFF 0)).mem.cells = [(0, 0x22), (4294967295, 0x11)] := by
  decide
/-- R69, R70: the second request of 100 bytes gets the cursor 100, one page is committed, and the gap faults. -/
theorem test_step_sbrk :
    let t := after (start (oneInstr [101, 0x13]) Memory.fresh 100 0 0)
    let u := after { t with pc := 0#32 }
    (t.reg 3, u.reg 3, u.mem.pages, u.mem.sbrk, u.mem.vsbrk) = (0#64, 100#64, [(0, .writeable)], 16384, 200) ∧
      u.mem.readByte 199#32 = some 0#8 ∧ u.mem.readByte 200#32 = none := by decide
/-- R71, R277: both policies for a request that cannot be met. -/
theorem test_sbrk_policies :
    let s := start (oneInstr [101, 0x13]) Memory.fresh 0x100000001 0 9
    ((s.sbrkWith .returnZero 3 1).reg 3, (s.sbrkWith .panic 3 1).reg 3, (s.sbrkWith .panic 3 1).result.kind) =
      (0#64, 9#64, some .panic) := by decide
/-- D24: a length of 2^32 is out of memory, also where the allocator of R69 could meet it; one less is not. -/
theorem test_sbrk_length :
    let s := fun r => start (oneInstr [101, 0x13]) { Memory.fresh with sbrk := 2 ^ 32 } r 0 9
    ((s 0x100000000).mem.growHeap (2 ^ 32)).isSome = true ∧ ((s 0).heapRequest 0x100000000#64).isNone = true ∧
      ((s 0).heapRequest 0xFFFFFFFF#64).isSome = true ∧ ((s 0x100000000).sbrkWith .returnZero 3 1).mem.vsbrk = 0 := by
  decide
/-- R287: a step in a final status changes nothing. -/
theorem test_step_final :
    let s := { start (oneInstr [1]) Memory.fresh 0 0 0 with status := .panic }
    after s = s := by decide
/-- R34, R35: the register views, and one byte of the window. -/
theorem test_register_views :
    let s := start (oneInstr []) Memory.fresh 0x1122334455667788 0 0
    ((s.setU32 1 0x80000000).reg 1, (s.setI32 1 0x80000000).reg 1, (s.setRegByte 1 7 0xFF).reg 1) =
      (0x80000000#64, 0xFFFFFFFF80000000#64, 0xFF22334455667788#64) := by decide
/-- R72, R73: the builder's hard failures. -/
theorem test_builder_failures :
    (match Builder.new.setReadable 0x4000 0x4010 [] with
      | .next b =>
          (match b.setWriteable 0x400F 0x4020 [] with | .fault (.build .chunkOverlap) => true | _ => false) &&
          (match b.setReadablePages 0x4000 0x8000 [] with | .fault (.build .pageAlreadyDeclared) => true | _ => false) &&
          (match b.setReadable 0x3FFF 0x4001 [] with | .fault (.build .chunkTooLong) => true | _ => false) &&
          (match b.setData 0x4010 [1] with | .fault (.build .pageMissing) => true | _ => false) &&
          (match b.finalize 0x4000 0x8000 with | .fault (.build .heapRangeNotEmpty) => true | _ => false)
      | _ => false) = true := by decide

/-- R72, logs 17 and 18: setData does not wrap, and a chunk takes data shorter than itself. -/
theorem test_builder_choices :
    (match Builder.new.setWriteable 0 8 [1] with
      | .next b =>
          (b.toMemory 0 0).val 0 == 1 && (b.toMemory 0 0).val 7 == 0 &&
          (match b.setWriteable 0xFFFFFFF8 0x100000000 [] with
            | .next c =>
                (match c.setData 0xFFFFFFFF [1] with | .next _ => true | _ => false) &&
                (match c.setData 0xFFFFFFFF [1, 2] with | .fault (.build .pageMissing) => true | _ => false)
            | _ => false)
      | _ => false) = true := by decide

/-! ### Witnesses: states and operands that meet the hypotheses of the statements -/

theorem witness_DecodeInvertsEncode :
    let p : Program := { code := [1, 180, 0x21, 1, 0xFF, 5, 0, 1],
                         mask := [true, true, false, false, false, false, false, true], jumpTable := [] }
    let i : Instr := .loadImmJumpInd 1 2 0xFFFFFFFFFFFFFFFF#64 5#64
    1 ≤ 4 ∧ 2 ≤ 4 ∧ i.args.fits 1 2 1#32 = true ∧ p.Holds 1#32 (encodeWith 1 2 1#32 i) := by
  refine ⟨by decide, by decide, by decide, fun k hk => ?_, by decide⟩
  have hk : k < 6 := hk
  interval_cases k <;> decide
theorem witness_WellFormedInstructionsAssemble : (Instr.addImm32 1 2 0xFFFFFFFF80000000#64).wellFormed = true := by decide
theorem witness_InstructionLengthFromMask :
    (oneInstr (List.replicate 30 1)).mask.length = (oneInstr (List.replicate 30 1)).code.length ∧
      (decode (oneInstr (List.replicate 30 1)) 0#32).2 = 24 ∧ (decode (oneInstr (List.replicate 24 1)) 0#32).2 = 23 ∧
      (decode { oneInstr [1, 1] with mask := [true, true] } 0#32).2 = 0 := by decide
theorem witness_Unassigned_first :
    let s := start (oneInstr [2]) Memory.fresh 0 0 0
    Runnable s ∧ 1 ≤ s.gas.toNat ∧ unassignedOpcode (s.prog.codeByte s.pc.toNat).toNat = true :=
  ⟨.inl rfl, by decide, by decide⟩
theorem witness_Unassigned_last :
    let s := { start (oneInstr [255]) Memory.fresh 0 0 0 with status := .host, gas := 1#64 }
    Runnable s ∧ 1 ≤ s.gas.toNat ∧ unassignedOpcode (s.prog.codeByte s.pc.toNat).toNat = true :=
  ⟨.inr rfl, by decide, by decide⟩
theorem witness_FetchPastEnd :
    let s := { start (oneInstr [1]) Memory.fresh 0 0 0 with pc := 1#32 }
    Runnable s ∧ 1 ≤ s.gas.toNat ∧ s.prog.code.length ≤ s.pc.toNat := ⟨.inl rfl, by decide, by decide⟩
theorem witness_RegisterShapesDecode :
    opcodeMap ((oneInstr [255]).codeByte 0).toNat = .noArgs Instr.trap ∧
      opcodeMap ((oneInstr [100, 0xFF]).codeByte 0).toNat = .twoRegs Instr.moveReg ∧
      opcodeMap ((oneInstr [230, 0xFF, 0xFF]).codeByte 0).toNat = .threeRegs Instr.minU := ⟨rfl, rfl, rfl⟩
theorem witness_ImmediateShapesDecode :
    opcodeMap ((oneInstr [10, 1, 2, 3, 4, 5]).codeByte 0).toNat = .oneImm Instr.ecalli ∧
      opcodeMap ((oneInstr [20, 3]).codeByte 0).toNat = .regExtImm Instr.loadImm64 ∧
      opcodeMap ((oneInstr [50]).codeByte 0).toNat = .regImm Instr.jumpInd ∧
      opcodeMap ((oneInstr [161, 0x21, 0xFF]).codeByte 0).toNat = .twoRegsImm Instr.rotR32ImmAlt := ⟨rfl, rfl, rfl, rfl⟩
theorem witness_TwoImmediateShapesDecode :
    opcodeMap ((oneInstr [33, 7]).codeByte 0).toNat = .twoImms Instr.storeImmU64 ∧
      opcodeMap ((oneInstr [70, 0x11]).codeByte 0).toNat = .regTwoImms Instr.storeImmIndU8 ∧
      opcodeMap ((oneInstr [180]).codeByte 0).toNat = .twoRegsTwoImms Instr.loadImmJumpInd := ⟨rfl, rfl, rfl⟩
theorem witness_OffsetShapesDecode :
    opcodeMap ((oneInstr [40]).codeByte 0).toNat = .oneOffset Instr.jump ∧
      opcodeMap ((oneInstr [90, 0x41]).codeByte 0).toNat = .regImmOffset Instr.branchGtSImm ∧
      opcodeMap ((oneInstr [170, 0x12]).codeByte 0).toNat = .twoRegsOffset Instr.branchEq := ⟨rfl, rfl, rfl⟩
theorem witness_BasicBlockStarts :
    programWf { code := [1, 40, 2, 0], mask := [true, true, false, true], jumpTable := [] } ∧
      Program.basicBlocks { code := [1, 40, 2, 0], mask := [true, true, false, true], jumpTable := [] } = [0, 1, 3] := by
  decide
theorem witness_ConditionalMoveResults :
    (start (oneInstr []) Memory.fresh 0 0 0).reg 2 = 0#64 ∧
      (start (oneInstr []) Memory.fresh 0 0x100000000 0).reg 2 ≠ 0#64 := by decide
/-- The last eight bytes of page 4 can be read and written. -/
theorem witness_load_and_store_whole :
    Readable page4 (absAddr 0x13FF8#64) 8 ∧ Writeable page4 (absAddr 0x13FF8#64) 8 := by
  constructor <;> intro k hk <;> interval_cases k <;> decide
/-- The first byte of eight that cannot be read: the first, one in the middle, the last. -/
theorem witness_load_fault :
    FirstUnreadable page4 (absAddr 0x20000#64) 8 0 ∧ FirstUnreadable page4 (absAddr 0x13FFC#64) 8 4 ∧
      FirstUnreadable page4 ((start (oneInstr []) page4 0x13FF0 0 0).indAddr 1 9#64) 8 7 := by
  refine ⟨⟨by decide, fun k hk => absurd hk (by omega), by decide⟩, ⟨by decide, fun k hk => ?_, by decide⟩,
    ⟨by decide, fun k hk => ?_, by decide⟩⟩ <;> interval_cases k <;> decide
/-- The first byte of eight that cannot be written: on the first page, and as the first byte of the second page. -/
theorem witness_store_fault :
    FirstUnwriteable mixedMemory (absAddr 0x10000#64) 8 0 ∧ FirstUnwriteable page4 (absAddr 0x13FFC#64) 8 4 ∧
      ¬ (4 < bytesOnFirstPage (absAddr 0x13FFC#64) 8) ∧ 0 < bytesOnFirstPage (absAddr 0x10000#64) 8 := by
  refine ⟨⟨by decide, fun k hk => absurd hk (by omega), by decide⟩, ⟨by decide, fun k hk => ?_, by decide⟩, by decide,
    by decide⟩
  interval_cases k <;> decide
/-- A condition that holds, one that does not, a target that is a block start and one that is not. -/
theorem witness_branches :
    let s := start (oneInstr [1]) Memory.fresh 5 5 4
    s.reg 1 = 5#64 ∧ ¬ (s.reg 1 ≠ 5#64) ∧ s.reg 1 = s.reg 2 ∧ s.reg 1 ≠ s.reg 3 ∧
      (0#32).toNat ∈ s.blocks ∧ (1#32).toNat ∉ s.blocks := by decide
/-- Each clause of the dynamic jump: the sentinel, zero, an odd address, the last entry of the table, the first index
past it, an entry that is a block start and one that is not. -/
theorem witness_DynamicJumpResults :
    let s := start { oneInstr [1] with jumpTable := [0#32, 1#32] } Memory.fresh 0xFFFF0000 0 0
    (s.indAddr 1 0#64).toNat = 0xFFFF0000 ∧ (s.indAddr 2 0#64).toNat = 0 ∧ (s.indAddr 2 1#64).toNat % 2 = 1 ∧
      (s.indAddr 2 4#64).toNat / 2 - 1 < s.prog.jumpTable.length ∧
      s.prog.jumpTable.length ≤ (s.indAddr 2 6#64).toNat / 2 - 1 ∧
      s.prog.jumpTable[(s.indAddr 2 2#64).toNat / 2 - 1]? = some 0#32 ∧ 0 ∈ s.blocks ∧
      s.prog.jumpTable[(s.indAddr 2 4#64).toNat / 2 - 1]? = some 1#32 ∧ 1 ∉ s.blocks := by decide
theorem witness_trap_fallthrough_ecalli :
    let s := fun b => start (oneInstr b) Memory.fresh 0 0 0
    Runnable (s [0]) ∧ 1 ≤ (s [0]).gas.toNat ∧ (decode (s [0]).prog (s [0]).pc).1 = .trap ∧
      (decode (s [1]).prog (s [1]).pc).1 = .fallthrough ∧ (decode (s [10, 7]).prog (s [10, 7]).pc).1 = .ecalli 7#64 :=
  ⟨.inl rfl, by decide, by decide, by decide, by decide⟩
/-- A canonical heap, and requests at each boundary: the committed boundary, one past it, the ceiling, one past it, and 2^32. -/
theorem witness_SbrkResult :
    let m : Memory := { pages := [(0, .writeable)], cells := [(5, 1)], sbrk := 16384, vsbrk := 100, endHeap := 65536 }
    let s := fun r => start (oneInstr []) m r 0 0
    m.wf ∧ m.vsbrk + ((s 16284).reg 1).toNat = m.sbrk ∧ m.sbrk < m.vsbrk + ((s 16285).reg 1).toNat ∧
      m.vsbrk + ((s 65436).reg 1).toNat = m.endHeap ∧ m.endHeap < m.vsbrk + ((s 65437).reg 1).toNat ∧
      ((s 65436).reg 1).toNat < 2 ^ 32 ∧ 2 ^ 32 ≤ ((s 0x100000000).reg 1).toNat := by decide
/-- Eight bytes across the top of the address space can be written. -/
theorem witness_StoreThenLoadReturnsValue : 8 ≤ 8 ∧ Writeable wrapMemory 0xFFFFFFFC#32 8 := by
  refine ⟨by decide, fun k hk => ?_⟩
  interval_cases k <;> decide
theorem witness_FreshHeapTwiceSbrk : 0 < 8192 ∧ 8192 < 2 ^ 14 ∧ 2 * 8192 ≤ 16384 ∧ 8193 < 2 ^ 14 ∧ 16384 < 2 * 8193 := by
  decide
theorem witness_IsWriteable :
    (start (oneInstr []) page4 0 0 0).mem.isWriteable 0x13FF8#32 8 = true ∧
      (start (oneInstr []) page4 0 0 0).mem.isWriteable 0x13FF9#32 8 = false ∧
      [1#8, 2, 3, 4, 5, 6, 7, 8].length = 8 := by decide
/-- A builder with a page and a chunk, every declaration of it, and its finalize, all succeed. -/
theorem witness_BuilderCalls :
    let b : Builder := { pages := [(4, .readable), (5, .chunked [⟨8, 16, true⟩])], cells := [(0x10000, 1)], finalized := false }
    b.wf ∧ (∃ c, b.setReadablePages 0 0x4000 [1] = .next c) ∧ (∃ c, b.setWriteablePages 0x18000 0x20000 [2] = .next c) ∧
      (∃ c, b.setReadable 0x14000 0x14008 [3] = .next c) ∧ (∃ c, b.setWriteable 0x14010 0x18000 [] = .next c) ∧
      (∃ c, b.setData 0x14008 [4, 5] = .next c) ∧ ∃ m c, b.finalize 0x20000 0x100000000 = .next (m, c) :=
  ⟨by decide, ⟨_, rfl⟩, ⟨_, rfl⟩, ⟨_, rfl⟩, ⟨_, rfl⟩, ⟨_, rfl⟩, ⟨_, _, rfl⟩⟩
theorem witness_StepRunsDecodedInstruction :
    let s := start (oneInstr [0xBE, 0x21, 3]) Memory.fresh 1 2 0
    Runnable s ∧ 1 ≤ s.gas.toNat ∧ decode s.prog s.pc = (.add32 3 1 2, 2) ∧
      ∃ u, exec (.add32 3 1 2)
        { s with
          gas := s.gas - 1#64
          status := .ok
          exitParam := none
          result := { kind := none, nextPc := none }
          started := true } = .next u := ⟨.inl rfl, by decide, by decide, ⟨_, rfl⟩⟩
theorem witness_CommitTable :
    (∃ t, exec .fallthrough State.reset = .next t ∧ t.result = { kind := none, nextPc := none }) ∧
      (State.reset.jumpTo 4#32).result = jumpRecord 4#32 ∧ (State.reset.raise .halt).result = haltRecord ∧
      (State.reset.raise .panic).result = panicRecord ∧ (State.reset.raise (.fault 9#32)).result = faultRecord 9#32 ∧
      (State.reset.raise (.host 9#32)).result = { kind := some (.host 9#32), nextPc := none } :=
  ⟨⟨_, rfl, rfl⟩, rfl, rfl, rfl, rfl, rfl⟩
theorem witness_OutOfGas :
    Runnable State.reset ∧ State.reset.gas.toNat = 0 ∧ 1 ≤ (start (oneInstr []) Memory.fresh 0 0 0).gas.toNat :=
  ⟨.inl rfl, by decide, by decide⟩
theorem witness_FinalStatuses :
    ([Status.halt, .panic, .oog].map (fun x => { State.reset with status := x }.status)) = [.halt, .panic, .oog] := by decide
theorem witness_HostPauseResumes : { State.reset with status := .host, exitParam := some 1#32 }.status = .host := by decide
/-- A good state whose step stores a byte and ends OK, and one whose step ends in PANIC with a fault address. -/
theorem witness_good_states :
    let s := start (oneInstr [123, 0x21]) page4 7 0x10000 0
    let u := start (oneInstr [123, 0x21]) mixedMemory 7 0x10000 0
    s.Inv ∧ u.Inv ∧ Runnable s ∧ Runnable u ∧ step s = .next (after s) ∧ step u = .next (after u) ∧
      (after s).status = .ok ∧ (after u).status = .panic ∧ (after u).exitParam ≠ none ∧
      mixedMemory.perm (0x10000#32).toNat = .readOnly ∧ ∀ rD rA, (decode s.prog s.pc).1 ≠ .sbrk rD rA := by
  refine ⟨⟨by decide, by decide, by decide, by decide, by decide, by decide⟩,
    ⟨by decide, by decide, by decide, by decide, by decide, by decide⟩, .inl rfl, .inl rfl, rfl, rfl, by decide, by decide, by decide, by decide, fun rD rA h => ?_⟩
  have hd : (decode (oneInstr [123, 0x21]) 0#32).1 = .storeIndU64 1 2 0#64 := by decide
  exact absurd (hd.symm.trans h) (by simp)
theorem witness_ResetMeetsTheInvariant :
    page4.wf ∧ ∃ t, State.reset.hostReset (oneInstr [1]) 7 100 none (some page4) = .next t := ⟨by decide, ⟨_, rfl⟩⟩
theorem witness_HostReset :
    programWf (oneInstr [1]) ∧ 2 ^ 64 - 1 ≤ 2 ^ 64 - 1 ∧
      ({ oneInstr [1] with mask := [] } : Program).mask.length ≠ ({ oneInstr [1] with mask := [] } : Program).code.length := by
  decide
theorem witness_GasCounter :
    let s := start (oneInstr []) Memory.fresh 0 0 0
    s.gas.toNat < (101#64).toNat ∧ (100#64).toNat ≤ s.gas.toNat ∧ s.gas.toNat + (0xFFFFFFFFFFFFFF9B#64).toNat ≤ 2 ^ 64 - 1 := by
  decide
/-- A pause, and a store of four bytes whose byte 2 is the first of an absent page. -/
theorem witness_HostMemoryAccess :
    let s := { start (oneInstr []) page4 0 0 0 with status := .host }
    s.status ≠ .ok ∧ State.reset.started = false ∧ s.mem.perm (0x20000#32).toNat ≠ .readWrite ∧
      Writeable s.mem 0x13FFE#32 2 ∧ FirstUnwriteable s.mem 0x13FFE#32 4 2 ∧ bytesBeforePage 0x13FFE#32 2 = 2 ∧
      bytesBeforePage 0x13FFE#32 1 = 0 := by
  refine ⟨by decide, by decide, by decide, ?_, ⟨by decide, ?_, by decide⟩, by decide, by decide⟩ <;>
    exact fun k hk => by interval_cases k <;> decide
/-- A load of the host that can be read, and one whose byte 2 cannot. -/
theorem witness_HostMemoryAccess_load :
    let s := start (oneInstr []) page4 0 0 0
    Readable s.mem 0x13FFE#32 2 ∧ FirstUnreadable s.mem 0x13FFE#32 4 2 := by
  refine ⟨?_, by decide, ?_, by decide⟩ <;> exact fun k hk => by interval_cases k <;> decide
/-- A run in progress: a step that ends OK. -/
theorem witness_HostMemoryAccess_in_a_run :
    let s := start (oneInstr [1]) Memory.fresh 0 0 0
    step s = .next (after s) ∧ (after s).status = .ok ∧ (after s).started = true := ⟨rfl, by decide, by decide⟩
/-- R293: the host may access memory before the first step, in a pause and after the run, and not between the steps of a run. -/
theorem test_host_may_access :
    let s := fun b => start (oneInstr b) Memory.fresh 0 0 0
    ((s [1]).hostMayAccess, (after (s [1])).hostMayAccess, (after (s [10])).hostMayAccess, (after (s [0])).hostMayAccess) =
      (true, false, true, true) := by decide

end Sys2Proof.Tests
end

section
/-! PROOFS. The encoding: the operand record a shape's fields spell, that decoding inverts encoding, and that every
decoded instruction is well formed (30_encoding.md sections 2 to 4). -/

namespace Sys2Proof.Laws.OpcodeMapRow

/-- The family OpcodeMapRow for every instruction at once. -/
theorem of_instr (i : Instr) : Statement i :=
  Instr.casesOn (motive := Statement) i
    trap fallthrough ecalli loadImm64 storeImmU8 storeImmU16 storeImmU32 storeImmU64 jump jumpInd loadImm loadU8 loadI8
    loadU16 loadI16 loadU32 loadI32 loadU64 storeU8 storeU16 storeU32 storeU64 storeImmIndU8 storeImmIndU16
    storeImmIndU32 storeImmIndU64 loadImmJump branchEqImm branchNeImm branchLtUImm branchLeUImm branchGeUImm
    branchGtUImm branchLtSImm branchLeSImm branchGeSImm branchGtSImm moveReg sbrk countSetBits64 countSetBits32
    leadingZeroBits64 leadingZeroBits32 trailingZeroBits64 trailingZeroBits32 signExtend8 signExtend16 zeroExtend16
    reverseBytes storeIndU8 storeIndU16 storeIndU32 storeIndU64 loadIndU8 loadIndI8 loadIndU16 loadIndI16 loadIndU32
    loadIndI32 loadIndU64 addImm32 andImm xorImm orImm mulImm32 setLtUImm setLtSImm shloLImm32 shloRImm32 sharRImm32
    negAddImm32 setGtUImm setGtSImm shloLImmAlt32 shloRImmAlt32 sharRImmAlt32 cmovIzImm cmovNzImm addImm64 mulImm64
    shloLImm64 shloRImm64 sharRImm64 negAddImm64 shloLImmAlt64 shloRImmAlt64 sharRImmAlt64 rotR64Imm rotR64ImmAlt
    rotR32Imm rotR32ImmAlt branchEq branchNe branchLtU branchLtS branchGeU branchGeS loadImmJumpInd add32 sub32 mul32
    divU32 divS32 remU32 remS32 shloL32 shloR32 sharR32 add64 sub64 mul64 divU64 divS64 remU64 remS64 shloL64 shloR64
    sharR64 and xor or mulUpperSS mulUpperUU mulUpperSU setLtU setLtS cmovIz cmovNz rotL64 rotL32 rotR64 rotR32 andInv
    orInv xnor max maxU min minU

end Sys2Proof.Laws.OpcodeMapRow

namespace Sys2Proof

/-! ### Reading a row's fields -/

/-- The operand record that the fields of a shape spell, for code bytes c, l argument bytes and pc (R89 to R101). -/
def Shape.readArgs (c : Nat → Byte) (l : Nat) (pc : Addr) : Shape → Args
  | .noArgs => .noArgs
  | .oneImm => .oneImm (immAt c 1 (lenRest l))
  | .regExtImm => .regExtImm (regLo (c 1)) (extImm c)
  | .twoImms =>
      let lX := lenField (c 1).toNat
      .twoImms (immAt c 2 lX) (immAt c (2 + lX) (lenRest (l - lX - 1)))
  | .oneOffset => .oneOffset (relTarget pc (immAt c 1 (lenRest l)))
  | .regImm => .regImm (regLo (c 1)) (immAt c 2 (lenRest (l - 1)))
  | .regTwoImms =>
      let lX := lenField ((c 1).toNat / 16)
      .regTwoImms (regLo (c 1)) (immAt c 2 lX) (immAt c (2 + lX) (lenRest (l - lX - 1)))
  | .regImmOffset =>
      let lX := lenField ((c 1).toNat / 16)
      .regImmOffset (regLo (c 1)) (immAt c 2 lX) (relTarget pc (immAt c (2 + lX) (lenRest (l - lX - 1))))
  | .twoRegs => .twoRegs (regLo (c 1)) (regHi (c 1))
  | .twoRegsImm => .twoRegsImm (regLo (c 1)) (regHi (c 1)) (immAt c 2 (lenRest (l - 1)))
  | .twoRegsOffset => .twoRegsOffset (regLo (c 1)) (regHi (c 1)) (relTarget pc (immAt c 2 (lenRest (l - 1))))
  | .twoRegsTwoImms =>
      let lX := lenField (c 2).toNat
      .twoRegsTwoImms (regLo (c 1)) (regHi (c 1)) (immAt c 3 lX) (immAt c (3 + lX) (lenRest (l - lX - 2)))
  | .threeRegs => .threeRegs (regByte (c 2)) (regLo (c 1)) (regHi (c 1))

/-- What a row reads is what it makes of the record its shape's fields spell. -/
theorem rowBuild_readArgs (r : Row) (c : Nat → Byte) (l : Nat) (pc : Addr) :
    Laws.rowBuild r (r.shape.readArgs c l pc) = some (r.read c l pc) := by
  cases r <;> rfl

/-- No row of the opcode map changes, drops or reorders the fields it reads (R103). -/
theorem args_read_opcodeMap (op : Nat) (c : Nat → Byte) (l : Nat) (pc : Addr) :
    ((opcodeMap op).read c l pc).args = (opcodeMap op).shape.readArgs c l pc := by
  unfold opcodeMap
  split <;> rfl

/-- The row at an instruction's opcode reads the instruction wherever the fields spell its operand record. -/
theorem read_opcodeMap_opcode {i : Instr} {c : Nat → Byte} {l : Nat} {pc : Addr}
    (h : i.args.shape.readArgs c l pc = i.args) : (opcodeMap i.opcode).read c l pc = i := by
  obtain ⟨-, hshape, hbuild⟩ := Laws.OpcodeMapRow.of_instr i
  have hread := rowBuild_readArgs (opcodeMap i.opcode) c l pc
  rw [hshape, h, hbuild] at hread
  exact (Option.some.inj hread).symm

/-! ### Immediates -/

theorem setWidth_signExtend {m w : Nat} (x : BitVec m) (hm : m ≤ w) (hw : w ≤ 64) :
    (x.signExtend 64).setWidth w = x.signExtend w := by
  rw [← BitVec.signExtend_eq_setWidth_of_le _ hw]
  apply BitVec.eq_of_toInt_eq
  rw [BitVec.toInt_signExtend_eq_toInt_bmod_of_le _ hw, BitVec.toInt_signExtend_of_le (by omega),
    ← BitVec.toInt_signExtend_of_le hm, BitVec.toInt_bmod_cancel]

theorem signExtend_signExtend {m w : Nat} (x : BitVec m) (hm : m ≤ w) (hw : w ≤ 64) :
    (x.signExtend w).signExtend 64 = x.signExtend 64 := by
  apply BitVec.eq_of_toInt_eq
  rw [BitVec.toInt_signExtend_of_le hw, BitVec.toInt_signExtend_of_le hm, BitVec.toInt_signExtend_of_le (by omega)]

/-- A field of l bytes can hold every sign-extension of at most 8l bits (R87). -/
theorem immFits_signExtend {m l : Nat} (x : BitVec m) (hm : m ≤ 8 * l) (hl : 8 * l ≤ 64) :
    immFits l (x.signExtend 64) = true := by
  simp only [immFits, sextBytes, BitVec.ofNat_toNat, setWidth_signExtend x hm hl, signExtend_signExtend x hm hl,
    beq_self_eq_true]

/-- An immediate read from at most four bytes is well formed (R13, R87). -/
theorem immWellFormed_immAt (c : Nat → Byte) (p : Nat) {l : Nat} (hl : l ≤ 4) : immWellFormed (immAt c p l) = true :=
  immFits_signExtend _ (Nat.mul_le_mul_left 8 hl) (by decide)

theorem immFits_relOffset (pc target : Addr) : immFits 4 (relOffset pc target) = true :=
  immFits_signExtend _ (by decide) (by decide)

@[simp] theorem relTarget_relOffset (pc target : Addr) : relTarget pc (relOffset pc target) = target := by
  rw [relTarget, relOffset, setWidth_signExtend _ (by decide) (by decide), BitVec.signExtend_eq, add_sub_cancel]

/-! ### Lengths of fields and of instructions -/

theorem lenField_le (n : Nat) : lenField n ≤ 4 := Nat.min_le_left _ _

theorem lenRest_le (n : Nat) : lenRest n ≤ 4 := Nat.min_le_left _ _

theorem skip_le (p : Program) (n : Nat) : p.skip n ≤ 24 := (skipFrom_spec p 24 (n + 1)).1

/-- The mask fixes the argument-byte count: n bits 0 and then, below the limit, a bit 1 (R84). -/
theorem skipFrom_eq {p : Program} {fuel k n : Nat} (hn : n ≤ fuel) (hzero : ∀ j, j < n → p.maskBit (k + j) = false)
    (hone : n < fuel → p.maskBit (k + n) = true) : p.skipFrom fuel k = n := by
  obtain ⟨hle, hpassed, hstop⟩ := skipFrom_spec p fuel k
  rcases Nat.lt_trichotomy (p.skipFrom fuel k) n with hlt | heq | hgt
  · have hstop := hstop (by omega)
    rw [hzero _ hlt] at hstop
    exact absurd hstop (by simp)
  · exact heq
  · have hone := hone (by omega)
    rw [hpassed n hgt] at hone
    exact absurd hone (by simp)

/-! ### The fields that the encoder writes are the fields that the decoder reads -/

/-- A read that gives a byte and more gives that byte first, and the rest one place further on. -/
theorem bytesAt_eq_cons {c : Nat → Byte} {p n : Nat} {b : Byte} {bs : List Byte} (h : bytesAt c p n = b :: bs) :
    c p = b ∧ bytesAt c (p + 1) (n - 1) = bs := by
  cases n with
  | zero => exact absurd h (by simp [bytesAt])
  | succ n =>
    have hsplit : bytesAt c p (n + 1) = c p :: bytesAt c (p + 1) n := by
      simp [bytesAt, List.range_succ_eq_map, Function.comp_def, Nat.add_assoc, Nat.add_comm 1]
    rw [hsplit] at h
    exact List.cons.inj h

/-- A read of lX and lY bytes that gives two fields of these lengths gives each where it stands. -/
theorem bytesAt_eq_append {c : Nat → Byte} {p n lX lY x y : Nat} (h : bytesAt c p n = leBytes lX x ++ leBytes lY y) :
    bytesAt c p lX = leBytes lX x ∧ bytesAt c (p + lX) lY = leBytes lY y := by
  have hn : n = lX + lY := by simpa using congrArg List.length h
  subst hn
  have hsplit : bytesAt c p (lX + lY) = bytesAt c p lX ++ bytesAt c (p + lX) lY := by
    simp [bytesAt, List.range_add, Function.comp_def, Nat.add_assoc]
  exact List.append_inj (hsplit.symm.trans h) (by simp)

/-- An immediate that fits its field is read back from it (R87). -/
theorem immAt_eq {c : Nat → Byte} {p l : Nat} {v : Word} (h : bytesAt c p l = leBytes l v.toNat)
    (hv : immFits l v = true) : immAt c p l = v := by
  rw [immAt, h, sextBytes_leBytes hv]

/-- A last field of at most four bytes is read back from the n bytes that are left (R90). -/
theorem immAt_lenRest_eq {c : Nat → Byte} {p n l : Nat} {v : Word} (hl : l ≤ 4)
    (h : bytesAt c p n = leBytes l v.toNat) (hv : immFits l v = true) : immAt c p (lenRest n) = v := by
  have hn : n = l := by simpa using congrArg List.length h
  subst hn
  rw [show lenRest n = n from Nat.min_eq_right hl]
  exact immAt_eq h hv

/-- Two fields in n bytes are read back: the first of the length given for it, the last of what is left (R92). -/
theorem immAt_two_eq {c : Nat → Byte} {n lX lY : Nat} {x y : Word} (p rest : Nat) (hl : lY ≤ 4) (hrest : rest = n - lX)
    (h : bytesAt c p n = leBytes lX x.toNat ++ leBytes lY y.toNat) (hx : immFits lX x = true)
    (hy : immFits lY y = true) : immAt c p lX = x ∧ immAt c (p + lX) (lenRest rest) = y := by
  have hn : n = lX + lY := by simpa using congrArg List.length h
  obtain ⟨hX, hY⟩ := bytesAt_eq_append h
  rw [← show rest = lY by omega] at hY hl hy
  exact ⟨immAt_eq hX hx, immAt_lenRest_eq hl hY hy⟩

theorem extImm_eq {c : Nat → Byte} {n : Nat} {v : Word} (h : bytesAt c 2 n = leBytes 8 v.toNat) : extImm c = v := by
  have hn : n = 8 := by simpa using congrArg List.length h
  rw [extImm, ← hn, h, leValue_leBytes]
  exact BitVec.eq_of_toNat_eq (by simp; omega)

theorem lenField_ofNat {n : Nat} (h : n ≤ 4) : lenField (BitVec.ofNat 8 n).toNat = n := by
  simp only [lenField, Config.maxImmBytes, BitVec.toNat_ofNat]
  omega

theorem lenField_nibbles {n : Nat} (h : n ≤ 4) (r : Reg) : lenField ((nibbles n r.val).toNat / 16) = n := by
  rw [nibbles_toNat (by omega) (by omega)]
  simp only [lenField, Config.maxImmBytes]
  omega

/-- A byte of two register nibbles gives both registers back (R86). -/
theorem regs_nibbles (hi lo : Reg) : regLo (nibbles hi.val lo.val) = lo ∧ regHi (nibbles hi.val lo.val) = hi :=
  ⟨regLo_nibbles hi.val lo (by omega), regHi_nibbles hi lo.val (by omega)⟩

/-- Where the argument bytes of a record stand, its shape's fields spell the record (R89 to R101). -/
theorem readArgs_encode {c : Nat → Byte} {l lX lY : Nat} {pc : Addr} (a : Args) (hX : lX ≤ 4) (hY : lY ≤ 4)
    (hfits : a.fits lX lY pc = true) (h : bytesAt c 1 l = a.encode lX lY pc) : a.shape.readArgs c l pc = a := by
  cases a with
  | noArgs => rfl
  | oneImm immX =>
    simp only [Args.shape, Shape.readArgs, immAt_lenRest_eq hX h hfits]
  | regExtImm rA immX =>
    obtain ⟨hA, hext⟩ := bytesAt_eq_cons h
    simp [Args.shape, Shape.readArgs, hA, extImm_eq hext, regLo_nibbles 0]
  | twoImms immX immY =>
    obtain ⟨hfX, hfY⟩ := Bool.and_eq_true_iff.1 hfits
    obtain ⟨hlen, himms⟩ := bytesAt_eq_cons h
    obtain ⟨hx, hy⟩ := immAt_two_eq 2 (l - lX - 1) hY (by omega) himms hfX hfY
    simp only [Args.shape, Shape.readArgs, hlen, lenField_ofNat hX, hx, hy]
  | oneOffset target =>
    simp only [Args.shape, Shape.readArgs, immAt_lenRest_eq hX h hfits, relTarget_relOffset]
  | regImm rA immX =>
    obtain ⟨hA, himm⟩ := bytesAt_eq_cons h
    simp [Args.shape, Shape.readArgs, hA, immAt_lenRest_eq hX himm hfits]
  | regTwoImms rA immX immY =>
    obtain ⟨hfX, hfY⟩ := Bool.and_eq_true_iff.1 hfits
    obtain ⟨hA, himms⟩ := bytesAt_eq_cons h
    obtain ⟨hx, hy⟩ := immAt_two_eq 2 (l - lX - 1) hY (by omega) himms hfX hfY
    simp only [Args.shape, Shape.readArgs, hA, regLo_nibbles lX rA (by omega), lenField_nibbles hX, hx, hy]
  | regImmOffset rA immX target =>
    obtain ⟨hfX, hfY⟩ := Bool.and_eq_true_iff.1 hfits
    obtain ⟨hA, himms⟩ := bytesAt_eq_cons h
    obtain ⟨hx, hy⟩ := immAt_two_eq 2 (l - lX - 1) hY (by omega) himms hfX hfY
    simp only [Args.shape, Shape.readArgs, hA, regLo_nibbles lX rA (by omega), lenField_nibbles hX, hx, hy,
      relTarget_relOffset]
  | twoRegs rD rA =>
    obtain ⟨hA, -⟩ := bytesAt_eq_cons h
    simp only [Args.shape, Shape.readArgs, hA, regs_nibbles]
  | twoRegsImm rA rB immX =>
    obtain ⟨hAB, himm⟩ := bytesAt_eq_cons h
    simp [Args.shape, Shape.readArgs, hAB, regs_nibbles, immAt_lenRest_eq hX himm hfits]
  | twoRegsOffset rA rB target =>
    obtain ⟨hAB, himm⟩ := bytesAt_eq_cons h
    simp [Args.shape, Shape.readArgs, hAB, regs_nibbles, immAt_lenRest_eq hX himm hfits]
  | twoRegsTwoImms rA rB immX immY =>
    obtain ⟨hfX, hfY⟩ := Bool.and_eq_true_iff.1 hfits
    obtain ⟨hAB, h⟩ := bytesAt_eq_cons h
    obtain ⟨hlen, himms⟩ : c 2 = _ ∧ bytesAt c 3 _ = _ := bytesAt_eq_cons h
    obtain ⟨hx, hy⟩ := immAt_two_eq 3 (l - lX - 2) hY (by omega) himms hfX hfY
    simp only [Args.shape, Shape.readArgs, hAB, hlen, regs_nibbles, lenField_ofNat hX, hx, hy]
  | threeRegs rD rA rB =>
    obtain ⟨hAB, h⟩ := bytesAt_eq_cons h
    obtain ⟨hD, -⟩ := bytesAt_eq_cons h
    simp [Args.shape, Shape.readArgs, hAB, hD, regs_nibbles]

/-- Decoding inverts encoding: where the bytes of an instruction stand and the mask makes them one instruction, the
decoder reads the instruction, for every length of its fields (R84, R102). -/
theorem decode_of_holds {p : Program} {pc : Addr} {lX lY : Nat} {i : Instr} (hX : lX ≤ 4) (hY : lY ≤ 4)
    (hfits : i.args.fits lX lY pc = true) (h : p.Holds pc (encodeWith lX lY pc i)) :
    decode p pc = (i, (encodeWith lX lY pc i).length - 1) := by
  obtain ⟨hbytes, hskip⟩ := h
  have hl : p.skip pc.toNat = (i.args.encode lX lY pc).length := by simpa [encodeWith] using hskip
  have hopcode : (p.codeByte pc.toNat).toNat = i.opcode := by
    have hbyte : p.codeByte pc.toNat = BitVec.ofNat 8 i.opcode := by simpa [encodeWith] using hbytes 0
    rw [hbyte, BitVec.toNat_ofNat, Nat.mod_eq_of_lt (Laws.OpcodeMapRow.of_instr i).1]
  have hargs : bytesAt (fun k => p.codeByte (pc.toNat + k)) 1 (p.skip pc.toNat) = i.args.encode lX lY pc := by
    rw [hl]
    apply bytesAt_eq
    intro k hk
    simpa [encodeWith, Nat.add_comm 1] using hbytes (k + 1) (by simpa [encodeWith] using hk)
  simp only [decode, hopcode, read_opcodeMap_opcode (readArgs_encode i.args hX hY hfits hargs)]
  simp [hl, encodeWith]

/-! ### Instructions as programs of their own -/

/-- Fields of four bytes hold the record of a well-formed instruction, whatever the place (R13, R87, R88). -/
theorem fits_of_wellFormed {a : Args} (pc : Addr) (h : a.wellFormed = true) : a.fits 4 4 pc = true := by
  cases a with
  | oneOffset | twoRegsOffset => exact immFits_relOffset pc _
  | regImmOffset => exact Bool.and_eq_true_iff.2 ⟨h, immFits_relOffset pc _⟩
  | _ => exact h

/-- An opcode and its arguments are at most 11 bytes (R89 to R101). -/
theorem encode_length_le (pc : Addr) (i : Instr) : (encode pc i).length ≤ 11 := by
  have hargs : (i.args.encode 4 4 pc).length ≤ 10 := by cases i.args <;> simp [Args.encode]
  exact Nat.succ_le_succ hargs

/-- One mask bit at the first of n + 1 code bytes makes all of them one instruction (R83, R84). -/
theorem skip_single {p : Program} {n : Nat} (hcode : p.code.length = n + 1)
    (hmask : p.mask = true :: List.replicate n false) (hn : n ≤ 24) : p.skip 0 = n := by
  apply skipFrom_eq hn
  · intro j hj
    simp [Program.maskBit, hcode, hmask, hj, Nat.add_comm 1]
  · simp [Program.maskBit, hcode, Nat.add_comm 1]

/-! ### Decoded records -/

/-- Every record that a shape's fields spell is well formed, whatever the bytes (R105). -/
theorem wellFormed_readArgs (sh : Shape) (c : Nat → Byte) (l : Nat) (pc : Addr) :
    (sh.readArgs c l pc).wellFormed = true := by
  cases sh with
  | noArgs | regExtImm | oneOffset | twoRegs | twoRegsOffset | threeRegs => rfl
  | oneImm | regImm | twoRegsImm => exact immWellFormed_immAt c _ (lenRest_le _)
  | regImmOffset => exact immWellFormed_immAt c _ (lenField_le _)
  | twoImms | regTwoImms | twoRegsTwoImms =>
    exact Bool.and_eq_true_iff.2 ⟨immWellFormed_immAt c _ (lenField_le _), immWellFormed_immAt c _ (lenRest_le _)⟩

end Sys2Proof
end

section
/-! PROOFS. What an instruction can do: the elementary writes of R117, that every instruction is made of them, and what
they all leave as reset loaded it. -/

namespace Sys2Proof.Machine

open Relation (ReflTransGen)

/-- One elementary write of an instruction other than sbrk (R117): a register, the result record, or content bytes that
may be written. A target goes into the record only where it is a block start (R120). -/
inductive StateWrite (s : State) : State → Prop where
  | setReg (r : Reg) (v : Word) : StateWrite s (s.setReg r v)
  | setRegFree (r : Reg) : StateWrite s (s.setRegFree r)
  | raise (k : ExitKind) : StateWrite s (s.raise k)
  | jumpTo (t : Addr) (h : s.isBlockStart t = true) : StateWrite s (s.jumpTo t)
  | writeBytes (a : Addr) (bs : List Byte) (h : Writeable s.mem a bs.length) :
      StateWrite s { s with mem := s.mem.writeBytes a bs }

theorem condMove_writes (s : State) (c : Bool) (r : Reg) (v : Word) :
    ReflTransGen StateWrite s (s.condMove c r v) := by
  cases c with
  | false => exact .refl
  | true => exact .single (.setReg r v)

theorem load_writes (s : State) (r : Reg) (a : Addr) (n : Nat) (ext : Word → Word) :
    ReflTransGen StateWrite s (s.load r a n ext) := by
  rcases load_cases s r a n ext with ⟨v, h⟩ | ⟨f, h⟩ <;> rw [h]
  · exact .single (.setReg r v)
  · exact .tail (.single (.setRegFree r)) (.raise _)

theorem store_writes (s : State) (a : Addr) (n : Nat) (v : Word) : ReflTransGen StateWrite s (s.store a n v) := by
  obtain ⟨k, hk, hw, h⟩ := store_cases s a n v
  have hbytes : StateWrite s { s with mem := s.mem.writeBytes a ((leBytes n v.toNat).take k) } :=
    .writeBytes a _ (by simpa [hk] using hw)
  rcases h with h | ⟨f, h⟩ <;> rw [h]
  · exact .single hbytes
  · exact .tail (.single hbytes) (.raise _)

theorem branch_writes (s : State) (t : Addr) (c : Bool) : ReflTransGen StateWrite s (s.branch t c) := by
  rcases branch_cases s t c with ⟨-, h⟩ | ⟨-, hb, h⟩ | ⟨-, -, h⟩ <;> rw [h]
  · exact .single (.jumpTo t hb)
  · exact .single (.raise .panic)

theorem djump_writes (s : State) (a : Addr) : ReflTransGen StateWrite s (s.djump a) := by
  rcases djump_cases s a with ⟨-, h⟩ | h | ⟨t, -, hb, h⟩ <;> rw [h]
  · exact .single (.raise .halt)
  · exact .single (.raise .panic)
  · exact .single (.jumpTo t hb)

/-- All that an operation can do, for every instruction: it completes, by elementary writes or as sbrk (R116, R117). -/
theorem exec_cases (i : Instr) (s : State) :
    ∃ t, exec i s = .next t ∧
      (ReflTransGen StateWrite s t ∨ ∃ rD rA, i = .sbrk rD rA ∧ t = s.sbrkWith Config.sbrkOomPolicy rD rA) := by
  cases i with
  | sbrk rD rA => exact ⟨_, rfl, .inr ⟨rD, rA, rfl, rfl⟩⟩
  | fallthrough => exact ⟨_, rfl, .inl .refl⟩
  | trap | ecalli => exact ⟨_, rfl, .inl (.single (.raise _))⟩
  | jump | branchEqImm | branchNeImm | branchLtUImm | branchLeUImm | branchGeUImm | branchGtUImm | branchLtSImm
  | branchLeSImm | branchGeSImm | branchGtSImm | branchEq | branchNe | branchLtU | branchLtS | branchGeU | branchGeS =>
    exact ⟨_, rfl, .inl (branch_writes s _ _)⟩
  | jumpInd => exact ⟨_, rfl, .inl (djump_writes s _)⟩
  | loadImmJump rA immX => exact ⟨_, rfl, .inl (.head (.setReg rA immX) (branch_writes _ _ _))⟩
  | loadImmJumpInd rA rB immX => exact ⟨_, rfl, .inl (.head (.setReg rA immX) (djump_writes _ _))⟩
  | loadU8 | loadI8 | loadU16 | loadI16 | loadU32 | loadI32 | loadU64 | loadIndU8 | loadIndI8 | loadIndU16 | loadIndI16
  | loadIndU32 | loadIndI32 | loadIndU64 => exact ⟨_, rfl, .inl (load_writes s _ _ _ _)⟩
  | storeU8 | storeU16 | storeU32 | storeU64 | storeIndU8 | storeIndU16 | storeIndU32 | storeIndU64 | storeImmU8
  | storeImmU16 | storeImmU32 | storeImmU64 | storeImmIndU8 | storeImmIndU16 | storeImmIndU32 | storeImmIndU64 =>
    exact ⟨_, rfl, .inl (store_writes s _ _ _)⟩
  | cmovIz | cmovNz | cmovIzImm | cmovNzImm => exact ⟨_, rfl, .inl (condMove_writes s _ _ _)⟩
  | _ => exact ⟨_, rfl, .inl (.single (.setReg _ _))⟩

/-! ### What no instruction writes -/

/-- The program image, the basic-block set and ENDHEAP are the same (R45, R48, R49). -/
def SameSetup (s t : State) : Prop := SameProgram s t ∧ t.mem.endHeap = s.mem.endHeap

theorem SameSetup.refl (s : State) : SameSetup s s := ⟨⟨rfl, rfl⟩, rfl⟩

theorem SameSetup.trans {s t u : State} (h : SameSetup s t) (h' : SameSetup t u) : SameSetup s u := by
  obtain ⟨⟨hprog, hblocks⟩, hend⟩ := h
  obtain ⟨⟨hprog', hblocks'⟩, hend'⟩ := h'
  exact ⟨⟨hprog'.trans hprog, hblocks'.trans hblocks⟩, hend'.trans hend⟩

theorem sameSetup_of_write {s t : State} (h : StateWrite s t) : SameSetup s t := by
  cases h with
  | setReg | setRegFree | raise | jumpTo => exact .refl s
  | writeBytes a bs =>
    obtain ⟨-, -, -, hend⟩ := writeBytes_layout s.mem a bs
    exact ⟨⟨rfl, rfl⟩, hend⟩

theorem sameSetup_of_writes {s t : State} (h : ReflTransGen StateWrite s t) : SameSetup s t := by
  induction h with
  | refl => exact .refl s
  | tail _ hw ih => exact ih.trans (sameSetup_of_write hw)

theorem growHeap_endHeap {m m' : Memory} {len prev : Nat} (h : m.growHeap len = some (prev, m')) :
    m'.endHeap = m.endHeap := by
  simp only [Memory.growHeap] at h
  split at h
  · exact absurd h (by simp)
  · split at h <;> cases h <;> rfl

theorem sbrkWith_sameSetup (s : State) (p : SbrkOomPolicy) (rD rA : Reg) : SameSetup s (s.sbrkWith p rD rA) := by
  rcases sbrkWith_cases s p rD rA with ⟨prev, m, -, hgrow, h⟩ | ⟨-, h | h⟩ <;> rw [h]
  · exact ⟨⟨rfl, rfl⟩, growHeap_endHeap hgrow⟩
  · exact .refl s
  · exact .refl s

theorem exec_sameSetup {i : Instr} {s t : State} (h : exec i s = .next t) : SameSetup s t := by
  obtain ⟨u, hu, heffect⟩ := exec_cases i s
  obtain rfl : u = t := Host.Outcome.next.inj (hu.symm.trans h)
  rcases heffect with hw | ⟨rD, rA, -, rfl⟩
  · exact sameSetup_of_writes hw
  · exact sbrkWith_sameSetup s _ rD rA

theorem commit_sameSetup (s : State) (l : Nat) : SameSetup s (s.commit l) := by
  simp [SameSetup, SameProgram]

/-- The start of a step and the gas check write none of it; an instruction and its commit keep it. -/
theorem step_sameSetup {s t : State} (h : step s = .next t) : SameSetup s t := by
  rcases step_cases h with ⟨-, rfl⟩ | ⟨-, -, rfl⟩ | ⟨-, -, u, hexec, rfl⟩
  · exact .refl _
  · exact .refl _
  · have hstart : SameSetup s s.resume.chargeGas.1.clearResult := .refl _
    exact hstart.trans ((exec_sameSetup hexec).trans (commit_sameSetup u _))

end Sys2Proof.Machine
end

section
/-! PROOFS. The settled statements of 00_scope.md. -/

namespace Sys2Proof.Proofs

/-- Settles O2: the code is the encoding, the mask makes all of it one instruction, and decoding inverts encoding. -/
theorem wellFormedInstructionsAssemble : Obligations.WellFormedInstructionsAssemble := by
  intro i jumpTable hwf bs
  have hlen : bs.length ≤ 11 := encode_length_le 0#32 i
  have hargs : bs.length - 1 ≤ 24 := (Nat.sub_le _ _).trans (hlen.trans (by decide))
  have hfits : i.args.fits 4 4 0#32 = true := fits_of_wellFormed 0#32 hwf
  refine ⟨hlen.trans (by decide), decode_of_holds (le_refl 4) (le_refl 4) hfits ⟨fun k _ => ?_, ?_⟩⟩
  · simp [Program.codeByte, bs, encode, Config.maxImmBytes]
  · exact congrArg (· + 1) (skip_single rfl rfl hargs)

/-- Settles O3: no row changes the record that its shape's fields spell, and every such record is well formed. -/
theorem decodedInstructionsAreWellFormed : Obligations.DecodedInstructionsAreWellFormed := by
  intro p pc
  refine ⟨?_, skip_le p pc.toNat⟩
  rw [Instr.wellFormed, decode, args_read_opcodeMap]
  exact wellFormed_readArgs _ _ _ _

/-- Settles O52: neither the start of a step, nor any instruction, nor commit writes the program or ENDHEAP. -/
theorem programIsFixedBetweenResets : Obligations.ProgramIsFixedBetweenResets := by
  intro s t h
  obtain ⟨⟨hprog, hblocks⟩, hend⟩ := Machine.step_sameSetup h
  exact ⟨hprog, hblocks, hend⟩

end Sys2Proof.Proofs
end

section
/-! PROOFS. What every instruction and its commit keep: an induction over an instruction's writes, the driver state,
canonical memory, the result record, and what a step makes of pc, STATUS, EXIT_PARAM and GAS (10_state.md). -/

namespace Sys2Proof.Machine

/-! ### Induction over what an instruction writes -/

/-- What every elementary write keeps, and every growth of the heap, every instruction keeps (R116, R117). -/
theorem exec_induction {P : State → Prop} (hwrite : ∀ {u v : State}, StateWrite u v → P u → P v)
    (hgrow : ∀ {u : State} {len prev : Nat} {m : Memory}, u.mem.growHeap len = some (prev, m) → P u →
      P { u with mem := m })
    {i : Instr} {s t : State} (h : exec i s = .next t) (hs : P s) : P t := by
  obtain ⟨u, hu, heffect⟩ := exec_cases i s
  obtain rfl : u = t := Host.Outcome.next.inj (hu.symm.trans h)
  rcases heffect with hwrites | ⟨rD, rA, -, rfl⟩
  · clear hu h
    induction hwrites with
    | refl => exact hs
    | tail _ hw ih => exact hwrite hw ih
  · rcases sbrkWith_cases s Config.sbrkOomPolicy rD rA with ⟨prev, m, -, hm, heq⟩ | ⟨-, heq | heq⟩ <;> rw [heq]
    · exact hwrite (.setReg rD _) (hgrow hm hs)
    · exact hwrite (.setReg rD _) hs
    · exact hwrite (.raise _) hs

theorem SameDriver.refl (s : State) : SameDriver s s := ⟨rfl, rfl, rfl, rfl, rfl⟩

theorem SameDriver.trans {s t u : State} (h : SameDriver s t) (h' : SameDriver t u) : SameDriver s u := by
  obtain ⟨hpc, hgas, hstatus, hparam, hstarted⟩ := h
  obtain ⟨hpc', hgas', hstatus', hparam', hstarted'⟩ := h'
  exact ⟨hpc'.trans hpc, hgas'.trans hgas, hstatus'.trans hstatus, hparam'.trans hparam, hstarted'.trans hstarted⟩

theorem sameDriver_of_write {s t : State} (h : StateWrite s t) : SameDriver s t := by
  cases h <;> exact .refl s

/-- No operation writes pc, GAS, STATUS or EXIT_PARAM (R117). -/
theorem exec_sameDriver {i : Instr} {s t : State} (h : exec i s = .next t) : SameDriver s t :=
  exec_induction (P := SameDriver s) (fun hw hu => hu.trans (sameDriver_of_write hw))
    (fun _ hu => hu.trans (.refl _)) h (.refl s)

theorem write_keeps_memWf {s t : State} (h : StateWrite s t) (hs : s.mem.wf) : t.mem.wf := by
  cases h with
  | setReg | setRegFree | raise | jumpTo => exact hs
  | writeBytes a bs hw => exact writeBytes_wf hs hw

theorem exec_keeps_memWf {i : Instr} {s t : State} (h : exec i s = .next t) (hs : s.mem.wf) : t.mem.wf :=
  exec_induction (P := fun u => u.mem.wf) write_keeps_memWf (fun hm hu => growHeap_wf hu hm) h hs

/-- The record holds at most one outcome, and a target in it is a basic-block start (R112, R120). -/
def State.RecordWf (s : State) : Prop :=
  resultWf s.result ∧ ∀ a, s.result.nextPc = some a → s.isBlockStart a = true

theorem recordWf_clearResult (s : State) : s.clearResult.RecordWf :=
  ⟨.inl rfl, fun _ h => absurd h (by simp [OpResult.empty])⟩

theorem write_keeps_recordWf {s t : State} (h : StateWrite s t) (hs : s.RecordWf) : t.RecordWf := by
  cases h with
  | setReg | setRegFree | writeBytes => exact hs
  | raise k => exact ⟨.inr rfl, fun _ h => absurd h (by simp)⟩
  | jumpTo a hblock =>
    refine ⟨.inl rfl, fun b h => ?_⟩
    obtain rfl : a = b := Option.some.inj h
    exact hblock

theorem exec_keeps_recordWf {i : Instr} {s t : State} (h : exec i s = .next t) (hs : s.RecordWf) : t.RecordWf :=
  exec_induction (P := State.RecordWf) write_keeps_recordWf (fun _ hu => hu) h hs

/-! ### The gas check -/

/-- Every opcode costs one unit, and an underflow leaves 0 (R15, R297). -/
theorem gasSub_gasCost (gas : Word) (op : Byte) : (gasSub gas (Config.gasCost op)).1.toNat = gas.toNat - 1 ∧
    ((gasSub gas (Config.gasCost op)).2 = true ↔ gas.toNat = 0) := by
  have hcost : (Config.gasCost op).toNat = 1 := rfl
  rcases gasSub_cases gas (Config.gasCost op) with ⟨hlt, h⟩ | ⟨hle, h⟩ <;> rw [h]
  · simp only [BitVec.toNat_ofNat, true_iff]
    omega
  · simp only [BitVec.toNat_sub_of_le hle, hcost, Bool.false_eq_true, false_iff, true_and]
    omega

@[simp] theorem chargeGas_pc (s : State) : s.chargeGas.1.pc = s.pc := rfl
@[simp] theorem chargeGas_status (s : State) : s.chargeGas.1.status = s.status := rfl
@[simp] theorem chargeGas_exitParam (s : State) : s.chargeGas.1.exitParam = s.exitParam := rfl
@[simp] theorem chargeGas_mem (s : State) : s.chargeGas.1.mem = s.mem := rfl
@[simp] theorem chargeGas_prog (s : State) : s.chargeGas.1.prog = s.prog := rfl
@[simp] theorem chargeGas_blocks (s : State) : s.chargeGas.1.blocks = s.blocks := rfl
@[simp] theorem chargeGas_result (s : State) : s.chargeGas.1.result = s.result := rfl
@[simp] theorem chargeGas_started (s : State) : s.chargeGas.1.started = s.started := rfl

@[simp] theorem chargeGas_gas (s : State) : s.chargeGas.1.gas.toNat = s.gas.toNat - 1 :=
  (gasSub_gasCost s.gas s.fetchOpcode).1

@[simp] theorem chargeGas_underflow (s : State) : s.chargeGas.2 = true ↔ s.gas.toNat = 0 :=
  (gasSub_gasCost s.gas s.fetchOpcode).2

/-! ### Commit -/

/-- All that a commit can do, by the record: an exception is taken, a target becomes pc, or pc goes to NEXT (R113). -/
theorem commit_cases (s : State) (l : Nat) :
    (∃ k, s.result.kind = some k ∧ s.commit l = s.takeExit l k) ∨
      (∃ a, s.result.nextPc = some a ∧ s.commit l = { s with pc := a, status := .ok, exitParam := none }) ∨
      (s.result.nextPc = none ∧ s.commit l = { s with pc := s.nextPc l, status := .ok, exitParam := none }) := by
  unfold State.commit
  rcases s.result.kind with _ | k
  · rcases s.result.nextPc with _ | a
    · exact .inr (.inr ⟨rfl, rfl⟩)
    · exact .inr (.inl ⟨a, rfl, rfl⟩)
  · exact .inl ⟨k, rfl, rfl⟩

theorem commit_status_ne_oog (s : State) (l : Nat) : (s.commit l).status ≠ .oog := by
  rcases commit_cases s l with ⟨k, -, h⟩ | ⟨a, -, h⟩ | ⟨-, h⟩ <;> rw [h]
  · cases k <;> simp [State.takeExit]
  · simp
  · simp

/-- Only a memory fault is charged again at commit; it is what leaves PANIC with an exit parameter (R113, R298). -/
theorem commit_gas (s : State) (l : Nat) :
    ((s.commit l).exitParam = none ∨ (s.commit l).status = .host → (s.commit l).gas = s.gas) ∧
      ((s.commit l).status = .panic → (s.commit l).exitParam ≠ none →
        (s.commit l).gas.toNat = s.gas.toNat - 1) := by
  rcases commit_cases s l with ⟨k, -, h⟩ | ⟨a, -, h⟩ | ⟨-, h⟩ <;> rw [h]
  · cases k with
    | fault a => simpa [State.takeExit] using (gasSub_gasCost s.gas Config.trapOpcode).1
    | halt | panic | host => simp [State.takeExit]
  · simp
  · simp

/-- Where a commit leaves pc: NEXT or the record's target in OK, NEXT in HOST, its place in HALT and PANIC
(R113, R286). -/
theorem commit_pc (s : State) (l : Nat) :
    ((s.commit l).status = .ok → (s.commit l).pc = s.nextPc l ∨ s.result.nextPc = some (s.commit l).pc) ∧
      ((s.commit l).status = .host → (s.commit l).pc = s.nextPc l) ∧
      ((s.commit l).status = .halt ∨ (s.commit l).status = .panic → (s.commit l).pc = s.pc) := by
  rcases commit_cases s l with ⟨k, -, h⟩ | ⟨a, ha, h⟩ | ⟨-, h⟩ <;> rw [h]
  · cases k <;> simp [State.takeExit]
  · simp [ha]
  · simp

theorem nextPc_toNat (s : State) (l : Nat) : (s.nextPc l).toNat = (s.pc.toNat + 1 + l) % 2 ^ 32 := by
  simp [State.nextPc, BitVec.toNat_add, Nat.add_assoc]

/-! ### The step -/

theorem isFinal_of_runnable {s : State} (h : Runnable s) : s.status.isFinal = false := by
  rcases h with h | h <;> rw [h] <;> rfl

/-- All that a step from OK or HOST can do: without gas it ends in OOG where it is; with gas it takes one unit, runs an
instruction from the empty record and commits it (R108, R111). -/
theorem step_cases_of_runnable {s t : State} (hs : Runnable s) (h : step s = .next t) :
    (s.gas.toNat = 0 ∧ t.status = .oog ∧ t.gas.toNat = 0 ∧ t.pc = s.pc) ∨
      (0 < s.gas.toNat ∧ ∃ u, u.gas.toNat = s.gas.toNat - 1 ∧ u.pc = s.pc ∧ SameProgram s u ∧ u.RecordWf ∧
        t = u.commit (s.prog.skip s.pc.toNat)) := by
  rcases step_cases h with ⟨hfinal, -⟩ | ⟨-, hgas, rfl⟩ | ⟨-, hgas, u, hexec, rfl⟩
  · exact absurd ((isFinal_of_runnable hs).symm.trans hfinal) (by simp)
  · have hgas : s.gas.toNat = 0 := by simpa using hgas
    exact .inl ⟨hgas, by simp, by simp [hgas], by simp⟩
  · have hgas : s.gas.toNat ≠ 0 := fun hzero =>
      absurd (hgas.symm.trans ((chargeGas_underflow s.resume).2 hzero)) (by simp)
    obtain ⟨hpc, hu, -⟩ := exec_sameDriver hexec
    obtain ⟨hprog, -⟩ := exec_sameSetup hexec
    have hrecord : u.RecordWf := exec_keeps_recordWf hexec (recordWf_clearResult _)
    exact .inr ⟨Nat.pos_of_ne_zero hgas, u, by simp [hu], hpc, hprog, hrecord, rfl⟩

/-- A basic-block start of an accepted program is an instruction start (R106, R119). -/
theorem mask_of_basicBlock {p : Program} (hp : programWf p) {k : Nat} (hk : k ∈ p.basicBlocks) :
    p.mask[k]? = some true := by
  obtain ⟨hlen, -⟩ := hp
  obtain ⟨hlt, hmask, -⟩ : k < p.code.length ∧ p.maskBit k = true ∧ _ := by
    simpa [Program.basicBlocks] using hk
  have hin : k < p.mask.length := hlen ▸ hlt
  rw [List.getElem?_eq_getElem hin]
  simpa [Program.maskBit, hlt, List.getD_eq_getElem?_getD, hin] using hmask

end Sys2Proof.Machine
end

section
/-! PROOFS. The register views: bit by bit, the little-endian byte strings behind the byte window, and the frame of a
register write (10_state.md section 1). -/

namespace Sys2Proof

/-- Bit j of a little-endian value is bit j mod 8 of byte j / 8 (R21). -/
theorem testBit_leValue (bs : List Byte) (j : Nat) :
    (leValue bs).testBit j = (bs.getD (j / 8) 0#8).getLsbD (j % 8) := by
  induction bs generalizing j with
  | nil => simp [leValue]
  | cons b bs ih =>
    have hsplit : leValue (b :: bs) = 2 ^ 8 * leValue bs + b.toNat := Nat.add_comm _ _
    rw [hsplit, Nat.testBit_two_pow_mul_add _ b.isLt]
    split
    · rename_i hlt
      rw [Nat.div_eq_of_lt hlt, Nat.mod_eq_of_lt hlt]
      rfl
    · rename_i hle
      obtain ⟨i, rfl⟩ := Nat.exists_eq_add_of_le (Nat.le_of_not_lt hle)
      simp [ih, Nat.add_comm 8]

theorem leBytes_getElem? {n k : Nat} (v : Nat) (h : k < n) :
    (leBytes n v)[k]? = some (BitVec.ofNat 8 (v / 256 ^ k)) := by
  rw [← leBytes_getD n v k h]
  simp [List.getD_eq_getElem?_getD, h]

/-- The bits of a word whose byte k is replaced in the byte string (R35). -/
theorem getLsbD_set_leBytes (v : Word) (b : Byte) {j : Nat} (k : Nat) (hj : j < 64) :
    (BitVec.ofNat 64 (leValue ((leBytes 8 v.toNat).set k b))).getLsbD j =
      if j / 8 = k then b.getLsbD (j % 8) else v.getLsbD j := by
  have hbyte : j / 8 < 8 := by omega
  rw [BitVec.getLsbD_ofNat, testBit_leValue, List.getD_eq_getElem?_getD, List.getElem?_set]
  by_cases h : k = j / 8
  · simp [h, hj, hbyte]
  · have hbit : (v.toNat / 256 ^ (j / 8)).testBit (j % 8) = v.getLsbD j := by
      rw [show 256 = 2 ^ 8 by rfl, ← pow_mul, Nat.testBit_div_two_pow, Nat.mod_add_div]
      rfl
    rw [if_neg h, if_neg (Ne.symm h), leBytes_getElem? _ hbyte, Option.getD_some, BitVec.getLsbD_ofNat, hbit]
    simp [hj, Nat.mod_lt]

/-- The signed low half of a word is the word's signed value modulo 2^32, around 0 (R22). -/
theorem s32_eq_bmod (v : Word) : s32 v = Int.bmod v.toInt (2 ^ 32) := by
  rw [s32, u32, ← BitVec.signExtend_eq_setWidth_of_le _ (by decide),
    BitVec.toInt_signExtend_eq_toInt_bmod_of_le _ (by decide)]

theorem toInt_x4 (u : BitVec 32) : (x4 u).toInt = u.toInt := BitVec.toInt_signExtend_of_le (by decide)

theorem toInt_to64 (i : Int) : (to64 i).toInt = Int.bmod i (2 ^ 64) := BitVec.toInt_ofInt i

end Sys2Proof

namespace Sys2Proof.Machine

/-- A register write changes no other register and nothing else (R30, R34). -/
theorem setReg_frame (s : State) (r : Reg) (v : Word) :
    SameRegsBut s (s.setReg r v) r ∧ SameButRegs s (s.setReg r v) :=
  ⟨fun _ hq => reg_setReg_other s v hq, ⟨rfl, fun _ => rfl⟩, .refl s, ⟨rfl, rfl⟩, rfl, rfl⟩

/-- A write through the byte window replaces one byte of the register's byte string (R35). -/
theorem setRegByte_of_lt (s : State) (i : Reg) {k : Nat} (b : Byte) (h : k < 8) :
    s.setRegByte i k b = s.setReg i (BitVec.ofNat 64 (leValue ((leBytes 8 (s.reg i).toNat).set k b))) := if_pos h

@[simp] theorem reset_reg (r : Reg) : State.reset.reg r = 0#64 := by simp [State.reg, State.reset]

/-- Without pages and heap gap no byte has a permission (R58, R74). -/
theorem fresh_perm (a : Nat) : Memory.fresh.perm a = .noAccess := by
  simp [Memory.perm, Memory.pagePerm, Memory.fresh, findPage]

theorem fresh_readByte (a : Addr) : Memory.fresh.readByte a = none := by simp [Memory.readByte, fresh_perm]

end Sys2Proof.Machine
end

section
/-! PROOFS. The settled statements of 10_state.md. -/

namespace Sys2Proof.Proofs

open Sys2Proof.Machine

/-- Settles O48: an instruction keeps canonical memory and leaves one outcome in a record that starts empty; the
program is not written; commit fits EXIT_PARAM to STATUS; and a step that begins sets the flag of a run. -/
theorem everyStepKeepsTheInvariant : Obligations.EveryStepKeepsTheInvariant := by
  intro s t hs h
  obtain ⟨⟨hprog, hblocks⟩, -⟩ := step_sameSetup h
  rcases step_cases h with ⟨-, rfl⟩ | ⟨-, -, rfl⟩ | ⟨-, -, u, hexec, rfl⟩
  · exact hs
  · obtain ⟨hmem, hwf, hstarts, -, hresult, -⟩ := hs
    exact ⟨hmem, hwf, hstarts, by simp [exitParamWf], hresult, by simp⟩
  · obtain ⟨hmem, hwf, hstarts, -⟩ := hs
    obtain ⟨-, -, -, -, hstarted⟩ := exec_sameDriver hexec
    obtain ⟨hresult, -⟩ := exec_keeps_recordWf hexec (recordWf_clearResult _)
    refine ⟨?_, by rwa [hprog], by rwa [hprog, hblocks], commit_exitParamWf _ _, by rwa [commit_result], ?_⟩
    · rw [commit_mem]
      exact exec_keeps_memWf hexec hmem
    · simp [hstarted]

/-- Settles O51: the gas check takes one unit, no operation touches GAS, and commit takes one more for a fault only. -/
theorem everyStepIsPaidFor : Obligations.EveryStepIsPaidFor := by
  intro s t hs h
  rcases step_cases_of_runnable hs h with ⟨hgas, hstatus, hzero, -⟩ | ⟨hgas, u, hu, -, -, -, rfl⟩
  · exact ⟨fun _ => ⟨hstatus, hzero⟩, fun hpos => absurd hgas hpos.ne'⟩
  · obtain ⟨hsame, hfault⟩ := commit_gas u (s.prog.skip s.pc.toNat)
    refine ⟨fun hzero => absurd hzero hgas.ne', fun _ => ⟨commit_status_ne_oog _ _, fun hend => ?_, ?_⟩⟩
    · rw [hsame hend, hu]
    · intro hpanic hparam
      rw [hfault hpanic hparam, hu, Nat.sub_sub]

/-- Settles O53: commit sends pc to NEXT or to the record's target, which only a validated transfer writes. -/
theorem controlLandsOnBlockStarts : Obligations.ControlLandsOnBlockStarts := by
  intro s t hinv hs h next
  obtain ⟨-, hwf, hstarts, -⟩ := hinv
  rcases step_cases_of_runnable hs h with ⟨-, hstatus, -, hpc⟩ | ⟨-, u, -, hpc, ⟨-, hblocks⟩, ⟨-, htarget⟩, rfl⟩
  · simp [hstatus, hpc]
  · have hnext : (u.nextPc (s.prog.skip s.pc.toNat)).toNat = next := by rw [nextPc_toNat, hpc]
    obtain ⟨hok, hhost, hstop⟩ := commit_pc u (s.prog.skip s.pc.toNat)
    refine ⟨fun hstatus => ?_, fun hstatus => (hhost hstatus) ▸ hnext, fun hstatus => ?_⟩
    · rcases hok hstatus with hseq | hjump
      · exact .inl (hseq ▸ hnext)
      · have hmem : (u.commit (s.prog.skip s.pc.toNat)).pc.toNat ∈ s.blocks := by
          simpa [State.isBlockStart, hblocks] using htarget _ hjump
        exact .inr ⟨hmem, mask_of_basicBlock hwf (hstarts ▸ hmem)⟩
    · rcases hstatus with hstatus | hstatus | hstatus
      · rw [hstop (.inl hstatus), hpc]
      · rw [hstop (.inr hstatus), hpc]
      · exact absurd hstatus (commit_status_ne_oog _ _)

/-- Settles O58: each view writes the register through `setReg`, whose frame is proved once; the byte window is the
register's little-endian byte string. -/
theorem registerViewsAndByteWindow : Obligations.RegisterViewsAndByteWindow := by
  intro s i w v u b
  refine ⟨BitVec.toNat_setWidth _ _, rfl, s32_eq_bmod _, ⟨reg_setReg_self s i w, setReg_frame s i w⟩,
    ⟨?_, setReg_frame s i _⟩, ⟨?_, setReg_frame s i _⟩, ⟨?_, setReg_frame s i _⟩, fun k hk => leBytes_getElem? _ hk,
    fun k hk => ?_⟩
  · rw [State.setI64, reg_setReg_self, toInt_to64]
  · rw [State.setU32, reg_setReg_self, BitVec.toNat_setWidth_of_le (by decide)]
  · rw [State.setI32, reg_setReg_self, toInt_x4]
  · rw [setRegByte_of_lt s i b hk]
    refine ⟨fun j hj => ?_, setReg_frame s i _⟩
    rw [reg_setReg_self]
    exact getLsbD_set_leBytes _ b k hj

/-- Settles O56: a fresh memory has no page and no heap gap, so no byte of it has a permission. -/
theorem resetValues : Obligations.ResetValues :=
  ⟨reset_reg, rfl, rfl, rfl, rfl, rfl, rfl, rfl, fresh_readByte⟩

end Sys2Proof.Proofs
end

section
/-! PROOFS. Spans of data memory, and what heap growth and protection keep of it: the rules of reading after a store,
the two ways in which the heap grows, and the bytes that no instruction writes (20_memory.md sections 2 to 4). -/

namespace Sys2Proof.Machine

/-! ### Spans -/

theorem byteAddr_toNat (a : Addr) (k : Nat) : (byteAddr a k).toNat = (a.toNat + k) % 2 ^ 32 := by
  simp [byteAddr, BitVec.toNat_add]

theorem Writeable.mono {m : Memory} {a : Addr} {n k : Nat} (h : Writeable m a n) (hk : k ≤ n) : Writeable m a k :=
  fun j hj => h j (hj.trans_le hk)

/-- A first byte without permission RW is the answer `isWriteable` looks for (R65, R67). -/
theorem isWriteable_iff (m : Memory) (a : Addr) (n : Nat) : m.isWriteable a n = true ↔ Writeable m a n := by
  unfold Memory.isWriteable
  rcases writeable_or_first m a n with hw | ⟨k, hk, hw, hfault⟩
  · simp [firstNotWriteable_of_writeable m n a hw, hw]
  · have hnot : ¬ Writeable m a n := fun h => hfault (h k hk)
    simp [firstNotWriteable_of_unwriteable m n k a ⟨hk, hw, hfault⟩, hnot]

theorem readByte_of_access {m : Memory} {a : Addr} (h : m.perm a.toNat ≠ .noAccess) :
    m.readByte a = some (m.val a.toNat) := if_neg h

theorem readByte_of_noAccess {m : Memory} {a : Addr} (h : m.perm a.toNat = .noAccess) : m.readByte a = none := if_pos h

/-- A stored byte that no later one overwrites reads back (R60). -/
theorem readByte_writeBytes_last {m : Memory} {a : Addr} {bs : List Byte} {k : Nat} (hw : Writeable m a bs.length)
    (hk : k < bs.length) (hlast : ∀ j, k < j → j < bs.length → byteAddr a j ≠ byteAddr a k) :
    (m.writeBytes a bs).readByte (byteAddr a k) = bs[k]? := by
  rw [readByte_of_access (by simp [hw k hk]), val_writeBytes_last m a bs k hk hlast]
  simp [List.getD_eq_getElem?_getD, hk]

theorem readByte_writeBytes_other {m : Memory} {a : Addr} {bs : List Byte} {b : Addr}
    (h : ∀ k, k < bs.length → b ≠ byteAddr a k) : (m.writeBytes a bs).readByte b = m.readByte b :=
  readByte_of_perm (writeBytes_perm m a bs _) (val_writeBytes_other m a bs b h)

/-- A load of a stored span answers the stored bytes, in a span no longer than the address space (R60, R64). -/
theorem loadInto_writeBytes {m : Memory} {a : Addr} {bs : List Byte} (hw : Writeable m a bs.length)
    (hlen : bs.length ≤ 2 ^ 32) : (m.writeBytes a bs).loadInto bs.length a = (bs, none) := by
  have hread : Readable (m.writeBytes a bs) a bs.length := fun k hk => by simp [hw k hk]
  rw [loadInto_of_readable _ _ _ hread]
  refine Prod.ext (List.ext_getElem (by simp) fun k _ hk => ?_) rfl
  simp [val_writeBytes m a bs hlen k hk, List.getD_eq_getElem?_getD, hk]

/-! ### The host's access -/

theorem hostAccess_of_paused {α : Type} {s : State} (x : α) (h : s.status ≠ .ok ∨ s.started = false) :
    s.hostAccess x = .next x := if_pos ((hostMayAccess_iff s).2 h)

theorem hostAccess_of_running {α : Type} {s : State} (x : α) (hstatus : s.status = .ok) (hstarted : s.started = true) :
    s.hostAccess x = .refused .hostAccessWhileRunning :=
  if_neg (by simp [hostMayAccess_iff, hstatus, hstarted])

theorem bytesStored_writeBytes {s : State} {a : Addr} {bs : List Byte} (hw : Writeable s.mem a bs.length) :
    BytesStored s { s with mem := s.mem.writeBytes a bs } a bs :=
  ⟨fun _ hk hlast => readByte_writeBytes_last hw hk hlast, fun _ hb => readByte_writeBytes_other hb⟩

/-- The content bytes of a span that can be read are what its bytes read as (R64). -/
theorem bytesRead_of_readable {s : State} {a : Addr} {n : Nat} (h : Readable s.mem a n) :
    BytesRead s a n ((List.range n).map (fun k => s.mem.val (byteAddr a k).toNat)) := by
  refine ⟨by simp, fun k hk => ?_⟩
  rw [readByte_of_access (h k hk)]
  simp [hk]

theorem bytesBeforePage_le (a : Addr) (k : Nat) : bytesBeforePage a k ≤ k := Nat.sub_le _ _

theorem storeFrom_sameLayout (s : State) (a : Addr) (bs : List Byte) :
    SameLayout s { s with mem := (s.mem.storeFrom a bs).1 } := by
  obtain ⟨hpages, hsbrk, hvsbrk, hend⟩ := storeFrom_layout s.mem a bs
  exact ⟨hpages, hsbrk, hvsbrk, hend, storeFrom_perm s.mem a bs⟩

/-- A run has begun once a step ends OK (R293; log 8). -/
theorem step_started {s t : State} (h : step s = .next t) (hok : t.status = .ok) : t.started = true := by
  rcases step_cases h with ⟨hfinal, rfl⟩ | ⟨-, -, rfl⟩ | ⟨-, -, u, hexec, rfl⟩
  · simp [hok, Status.isFinal] at hfinal
  · simp at hok
  · obtain ⟨-, -, -, -, hstarted⟩ := exec_sameDriver hexec
    simp [hstarted]

theorem hostReset_started {s t : State} {p : Program} {initialPC initialGas : Nat} {regs : Option (Vector Word 13)}
    {mem : Option Memory} (h : s.hostReset p initialPC initialGas regs mem = .next t) : t.started = false := by
  unfold State.hostReset at h
  split at h
  · exact absurd h (by simp)
  · split at h
    · exact absurd h (by simp)
    · split at h
      · exact absurd h (by simp)
      · cases h
        rfl

/-! ### Heap growth -/

/-- The memory after a growth past the committed boundary: writeable, zero-filled pages up to the page boundary at or
above the new cursor (R69). -/
def Memory.commitHeap (m : Memory) (newV : Nat) : Memory :=
  { m with
    pages := placePages m.pages .writeable (pageNumber m.sbrk) (pageNumber (pageRoundUp newV) - pageNumber m.sbrk)
    cells := m.cells.filter (fun c => decide (c.1 < m.sbrk ∨ pageRoundUp newV ≤ c.1))
    sbrk := pageRoundUp newV
    vsbrk := newV }

theorem commitHeap_pages {m : Memory} {newV boundary : Nat} (h : pageRoundUp newV = boundary) :
    (m.commitHeap newV).pages =
      placePages m.pages .writeable (pageNumber m.sbrk) (pageNumber boundary - pageNumber m.sbrk) := h ▸ rfl

theorem growHeap_outOfMemory {m : Memory} {len : Nat} (h : m.endHeap < m.vsbrk + len) : m.growHeap len = none :=
  if_pos h

theorem growHeap_committed {m : Memory} {len : Nat} (hend : m.vsbrk + len ≤ m.endHeap) (h : m.vsbrk + len ≤ m.sbrk) :
    m.growHeap len = some (m.vsbrk, { m with vsbrk := m.vsbrk + len }) :=
  (if_neg hend.not_gt).trans (if_pos h)

theorem growHeap_commits {m : Memory} {len : Nat} (hend : m.vsbrk + len ≤ m.endHeap) (h : m.sbrk < m.vsbrk + len) :
    m.growHeap len = some (m.vsbrk, m.commitHeap (m.vsbrk + len)) :=
  (if_neg hend.not_gt).trans (if_neg h.not_ge)

/-- A request within the ceiling is met, and answered with the old cursor (R69). -/
theorem growHeap_within_ceiling {m : Memory} {len : Nat} (hend : m.vsbrk + len ≤ m.endHeap) :
    ∃ m', m.growHeap len = some (m.vsbrk, m') := by
  rcases Nat.lt_or_ge m.sbrk (m.vsbrk + len) with hlt | hle
  · exact ⟨_, growHeap_commits hend hlt⟩
  · exact ⟨_, growHeap_committed hend hle⟩

/-- All that a growth of the heap can do: the cursor moves within the committed pages, or pages are committed (R69). -/
theorem growHeap_cases {m m' : Memory} {len prev : Nat} (h : m.growHeap len = some (prev, m')) :
    prev = m.vsbrk ∧ m.vsbrk + len ≤ m.endHeap ∧
      ((m.vsbrk + len ≤ m.sbrk ∧ m' = { m with vsbrk := m.vsbrk + len }) ∨
        (m.sbrk < m.vsbrk + len ∧ m' = m.commitHeap (m.vsbrk + len))) := by
  rcases Nat.lt_or_ge m.endHeap (m.vsbrk + len) with hend | hend
  · simp [growHeap_outOfMemory hend] at h
  · rcases Nat.lt_or_ge m.sbrk (m.vsbrk + len) with hlt | hle
    · rw [growHeap_commits hend hlt] at h
      cases h
      exact ⟨rfl, hend, .inr ⟨hlt, rfl⟩⟩
    · rw [growHeap_committed hend hle] at h
      cases h
      exact ⟨rfl, hend, .inl ⟨hle, rfl⟩⟩

/-- The cursor moves by the length and stays in the committed pages, which are never given back (R69). -/
theorem growHeap_cursors {m m' : Memory} {len prev : Nat} (h : m.growHeap len = some (prev, m')) :
    m'.vsbrk = m.vsbrk + len ∧ m'.vsbrk ≤ m'.sbrk ∧ m.sbrk ≤ m'.sbrk := by
  obtain ⟨-, -, ⟨hle, rfl⟩ | ⟨hlt, rfl⟩⟩ := growHeap_cases h
  · exact ⟨rfl, hle, le_refl _⟩
  · have hround := le_pageRoundUp (m.vsbrk + len)
    exact ⟨rfl, hround, hlt.le.trans hround⟩

theorem readCell_filter_addr (cs : List Host.Cell) (f : Nat → Bool) (a : Nat) :
    readCell (cs.filter (fun c => f c.1)) a = if f a then readCell cs a else unlistedByte := by
  induction cs with
  | nil => simp [readCell]
  | cons c cs ih =>
    by_cases hc : c.1 = a
    · subst hc
      by_cases hf : f c.1 <;> simp [hf, readCell, ih]
    · by_cases hf : f c.1 <;> simp [hf, readCell, hc, ih]

/-- The content after growth: new pages read 0, every other byte keeps its content (R69). -/
theorem growHeap_val {m m' : Memory} {len prev : Nat} (h : m.growHeap len = some (prev, m')) (a : Nat) :
    m'.val a = if m.sbrk ≤ a ∧ a < m'.sbrk then unlistedByte else m.val a := by
  obtain ⟨-, -, ⟨-, rfl⟩ | ⟨-, rfl⟩⟩ := growHeap_cases h
  · rw [if_neg (by show ¬ (m.sbrk ≤ a ∧ a < m.sbrk); omega)]
    rfl
  · have hval := readCell_filter_addr m.cells (fun x => decide (x < m.sbrk ∨ pageRoundUp (m.vsbrk + len) ≤ x)) a
    refine hval.trans ?_
    by_cases hin : m.sbrk ≤ a ∧ a < pageRoundUp (m.vsbrk + len)
    · rw [if_neg (by simpa using hin), if_pos (by exact hin)]
    · rw [if_pos (by simp only [decide_eq_true_eq]; omega), if_neg (by exact hin)]
      rfl

theorem perm_of_gap {m : Memory} {a : Nat} (h : m.vsbrk ≤ a ∧ a < m.sbrk) : m.perm a = .noAccess := if_pos h

theorem perm_outside_gap {m : Memory} {a : Nat} (h : ¬ (m.vsbrk ≤ a ∧ a < m.sbrk)) : m.perm a = m.pagePerm a := if_neg h

/-- Growth changes nothing below the old cursor and nothing from the new boundary on (R69). -/
theorem growHeap_other {m m' : Memory} {len prev : Nat} (hm : m.wf) (h : m.growHeap len = some (prev, m')) {a : Nat}
    (ha : a < m.vsbrk ∨ m'.sbrk ≤ a) : m'.perm a = m.perm a ∧ m'.val a = m.val a := by
  obtain ⟨-, -, ⟨hle, -⟩, -⟩ := id hm
  obtain ⟨hv, hv', hs⟩ := growHeap_cursors h
  have hout : ¬ (m.sbrk ≤ a ∧ a < m'.sbrk) := by omega
  rw [perm_outside_gap (by omega), perm_outside_gap (by omega), growHeap_pagePerm hm h, growHeap_val h, if_neg hout,
    if_neg hout]
  exact ⟨rfl, rfl⟩

/-- The committed pages and the bytes that a growth returns: content and permission (R69). -/
theorem growHeap_returned {m m' : Memory} {len prev : Nat} (hm : m.wf) (h : m.growHeap len = some (prev, m')) {a : Nat}
    (ha : a < m.vsbrk + len) :
    (m.sbrk ≤ a → m'.perm a = .readWrite ∧ m'.val a = 0#8) ∧
      (a < m.sbrk → m'.perm a = m.pagePerm a ∧ m'.val a = m.val a) := by
  obtain ⟨hv, hv', -⟩ := growHeap_cursors h
  rw [perm_outside_gap (by omega), growHeap_pagePerm hm h, growHeap_val h]
  constructor
  · intro hs
    have hin : m.sbrk ≤ a ∧ a < m'.sbrk := by omega
    rw [if_pos hin, if_pos hin]
    exact ⟨rfl, rfl⟩
  · intro hs
    have hout : ¬ (m.sbrk ≤ a ∧ a < m'.sbrk) := by omega
    rw [if_neg hout, if_neg hout]
    exact ⟨rfl, rfl⟩

theorem pageSize_eq : Config.pageSize = 16384 := by decide

/-- The first page boundary at or above v is the only one in reach of a page (R69). -/
theorem pageRoundUp_eq_iff {v b : Nat} : pageRoundUp v = b ↔ b % 16384 = 0 ∧ v ≤ b ∧ b < v + 16384 := by
  unfold pageRoundUp
  rw [pageSize_eq]
  omega

/-- A growth past the boundary commits whole pages, up to the first page boundary that holds the new cursor (R69). -/
theorem growHeap_pages {m m' : Memory} {len prev : Nat} (h : m.growHeap len = some (prev, m'))
    (hlt : m.sbrk < m.vsbrk + len) :
    m'.sbrk % 2 ^ 14 = 0 ∧ m'.sbrk < m.vsbrk + len + 2 ^ 14 ∧
      ∀ n, findPage m'.pages n =
        if m.sbrk / 2 ^ 14 ≤ n ∧ n < m'.sbrk / 2 ^ 14 then some .writeable else findPage m.pages n := by
  obtain ⟨-, -, hs⟩ := growHeap_cursors h
  obtain ⟨-, -, ⟨hle, -⟩ | ⟨-, rfl⟩⟩ := growHeap_cases h
  · omega
  · obtain ⟨halign, -, hround⟩ := pageRoundUp_eq_iff.1 (rfl : pageRoundUp (m.vsbrk + len) = _)
    refine ⟨halign, hround, fun n => (findPage_placePages _ _ _ _ n).trans ?_⟩
    rw [Nat.add_sub_cancel' (pageNumber_le (by exact hs))]
    rfl

/-! ### sbrk -/

/-- sbrk where the allocator grows the heap (R277, R279). -/
theorem exec_sbrk_grows {s : State} {rD rA : Reg} {prev : Nat} {m : Memory} (hlen : (s.reg rA).toNat < 2 ^ 32)
    (h : s.mem.growHeap (s.reg rA).toNat = some (prev, m)) :
    exec (.sbrk rD rA) s = .next ({ s with mem := m }.setReg rD (BitVec.ofNat 64 prev)) := by
  have hreq : s.heapRequest (s.reg rA) = some (prev, m) := (if_pos hlen).trans h
  show Host.Outcome.next (s.sbrkWith Config.sbrkOomPolicy rD rA) = _
  simp only [State.sbrkWith, hreq]

/-- sbrk where the request is out of memory (R71, R279; log 20). -/
theorem exec_sbrk_outOfMemory {s : State} {rD rA : Reg}
    (h : 2 ^ 32 ≤ (s.reg rA).toNat ∨ s.mem.endHeap < s.mem.vsbrk + (s.reg rA).toNat) :
    exec (.sbrk rD rA) s = .next (s.sbrkOom Config.sbrkOomPolicy rD) := by
  have hreq : s.heapRequest (s.reg rA) = none := by
    rcases heapRequest_cases s (s.reg rA) with ⟨hlt, hreq⟩ | ⟨-, hreq⟩ <;> rw [hreq]
    exact growHeap_outOfMemory (h.resolve_left hlt.not_ge)
  show Host.Outcome.next (s.sbrkWith Config.sbrkOomPolicy rD rA) = _
  simp only [State.sbrkWith, hreq]

theorem raise_frame (s : State) (k : ExitKind) : SameButResult s (s.raise k) :=
  ⟨fun _ => rfl, ⟨rfl, fun _ => rfl⟩, .refl s, ⟨rfl, rfl⟩, rfl⟩

/-! ### Protection -/

/-- No permission and no byte without permission RW is changed from s to t (R59, R65). -/
def SameProtection (s t : State) : Prop :=
  ∀ a : Addr, t.mem.perm a.toNat = s.mem.perm a.toNat ∧
    (s.mem.perm a.toNat ≠ .readWrite → t.mem.readByte a = s.mem.readByte a)

theorem SameProtection.of_mem {s t : State} (h : t.mem = s.mem) : SameProtection s t := fun _ => by simp [h]

theorem SameProtection.trans {s t u : State} (h : SameProtection s t) (h' : SameProtection t u) :
    SameProtection s u := by
  intro a
  obtain ⟨hperm, hread⟩ := h a
  obtain ⟨hperm', hread'⟩ := h' a
  exact ⟨hperm'.trans hperm, fun ha => (hread' (hperm ▸ ha)).trans (hread ha)⟩

/-- Content is the one thing of memory that an elementary write touches, and only where it may be written (R117). -/
theorem sameProtection_of_write {s t : State} (h : StateWrite s t) : SameProtection s t := by
  cases h with
  | setReg | setRegFree | raise | jumpTo => exact .of_mem rfl
  | writeBytes a bs hw =>
    refine fun b => ⟨writeBytes_perm s.mem a bs _, fun hb => readByte_writeBytes_other fun k hk hbk => hb ?_⟩
    rw [hbk]
    exact hw k hk

theorem exec_sameProtection {i : Instr} {s t : State} (hi : ∀ rD rA, i ≠ .sbrk rD rA) (h : exec i s = .next t) :
    SameProtection s t := by
  obtain ⟨u, hu, heffect⟩ := exec_cases i s
  obtain rfl : u = t := Host.Outcome.next.inj (hu.symm.trans h)
  rcases heffect with hwrites | ⟨rD, rA, hsbrk, -⟩
  · clear hu h
    induction hwrites with
    | refl => exact .of_mem rfl
    | tail _ hw ih => exact ih.trans (sameProtection_of_write hw)
  · exact absurd hsbrk (hi rD rA)

/-- m' is canonical and has every read-only byte of m, as such and with its content (R59). -/
def Memory.KeepsReadOnly (m m' : Memory) : Prop :=
  m'.wf ∧ ∀ a : Addr, m.perm a.toNat = .readOnly → m'.perm a.toNat = .readOnly ∧ m'.readByte a = m.readByte a

theorem write_keepsReadOnly {m : Memory} {s t : State} (h : StateWrite s t) (hs : m.KeepsReadOnly s.mem) :
    m.KeepsReadOnly t.mem := by
  obtain ⟨hwf, hro⟩ := hs
  refine ⟨write_keeps_memWf h hwf, fun a ha => ?_⟩
  obtain ⟨hperm, hread⟩ := hro a ha
  obtain ⟨hperm', hread'⟩ := sameProtection_of_write h a
  exact ⟨hperm'.trans hperm, (hread' (by simp [hperm])).trans hread⟩

/-- The heap holds no read-only byte between its cursor and the boundary that a growth reaches (R69, R73). -/
theorem readOnly_outside_growth {m m' : Memory} {len prev a : Nat} (hm : m.wf)
    (h : m.growHeap len = some (prev, m')) (ha : m.perm a = .readOnly) : a < m.vsbrk ∨ m'.sbrk ≤ a := by
  obtain ⟨-, hpage⟩ := perm_ne_of_gap (m := m) (a := a) (by simp [ha])
  have hgap : ¬ (m.vsbrk ≤ a ∧ a < m.sbrk) := fun hin => by simp [perm_of_gap hin] at ha
  have hheap : ¬ (m.sbrk ≤ a ∧ a < m.endHeap) := fun ⟨hlo, hhi⟩ => by
    simp [hpage, pagePerm_heap hm hlo hhi] at ha
  obtain ⟨-, -, ⟨-, hend, -⟩, -⟩ := growHeap_wf hm h
  rw [growHeap_endHeap h] at hend
  omega

theorem growHeap_keepsReadOnly {m u u' : Memory} {len prev : Nat} (hgrow : u.growHeap len = some (prev, u'))
    (hu : m.KeepsReadOnly u) : m.KeepsReadOnly u' := by
  obtain ⟨hwf, hro⟩ := hu
  refine ⟨growHeap_wf hwf hgrow, fun a ha => ?_⟩
  obtain ⟨hperm, hread⟩ := hro a ha
  obtain ⟨hperm', hval⟩ := growHeap_other hwf hgrow (readOnly_outside_growth hwf hgrow hperm)
  exact ⟨hperm'.trans hperm, (readByte_of_perm hperm' hval).trans hread⟩

theorem exec_keepsReadOnly {i : Instr} {s t : State} (h : exec i s = .next t) (hs : s.mem.wf) :
    s.mem.KeepsReadOnly t.mem :=
  exec_induction (P := fun u => s.mem.KeepsReadOnly u.mem) write_keepsReadOnly growHeap_keepsReadOnly h
    ⟨hs, fun _ ha => ⟨ha, rfl⟩⟩

end Sys2Proof.Machine
end

section
/-! PROOFS. The memory builder: what a successful call has checked, what pages and chunks make of a permission, and that
content is only ever written where something is declared (20_memory.md section 5). -/

namespace Sys2Proof.Machine

/-! ### The page map -/

theorem mem_of_findPage {pages : List (Nat × Page)} {n : Nat} {p : Page} (h : findPage pages n = some p) :
    (n, p) ∈ pages := by
  induction pages with
  | nil => simp [findPage] at h
  | cons q qs ih =>
    rw [findPage] at h
    split at h
    · rename_i hq
      obtain rfl : q.2 = p := Option.some.inj h
      exact hq ▸ List.mem_cons_self
    · exact List.mem_cons_of_mem _ (ih h)

theorem pagePerm_of_findPage {m : Memory} {a : Nat} {p : Page} (h : findPage m.pages (pageNumber a) = some p) :
    m.pagePerm a = p.perm (pageOffset a) := by
  simp only [Memory.pagePerm, h]

theorem pagePerm_of_noPage {m : Memory} {a : Nat} (h : findPage m.pages (pageNumber a) = none) :
    m.pagePerm a = .noAccess := by
  simp only [Memory.pagePerm, h]

/-- Only the descriptor of its own page decides the permission of a byte (R59). -/
theorem pagePerm_congr {m m' : Memory} {a : Nat}
    (h : findPage m'.pages (pageNumber a) = findPage m.pages (pageNumber a)) : m'.pagePerm a = m.pagePerm a := by
  simp only [Memory.pagePerm, h]

/-! ### Declarations -/

/-- b with another page map and with data written from address a on: what every declaration does to a builder. -/
def Builder.declare (b : Builder) (pages : List (Nat × Page)) (a : Nat) (data : List Byte) : Builder :=
  { b with pages := pages, cells := writeContent b.cells a data }

/-- The permission the declarations give a byte (R59, R72). -/
def Builder.perm (b : Builder) (x : Nat) : Perm := (b.toMemory 0 0).pagePerm x

theorem readCell_of_undeclared {b : Builder} {x : Nat} (hb : b.wf) (h : b.perm x = .noAccess) :
    readCell b.cells x = 0#8 := by
  obtain ⟨-, -, hbacked⟩ := hb
  exact readCell_of_unlisted fun c hc hcx => hbacked c hc (hcx ▸ h)

theorem contentWritten_declare (b : Builder) (pages : List (Nat × Page)) (a : Nat) (data : List Byte) :
    ContentWritten b (b.declare pages a data) a data :=
  ⟨fun k hk => readCell_writeContent b.cells a data k hk, fun x hx => readCell_writeContent_other b.cells a data x hx⟩

/-- A declaration keeps the canonical form where its content lies in declared bytes and no byte loses its declaration
(R56, R57, R72). -/
theorem declare_wf {b : Builder} {pages : List (Nat × Page)} {a : Nat} {data : List Byte} (hb : b.wf)
    (hpages : pagesCanonical pages)
    (hnew : ∀ x, a ≤ x → x < a + data.length → (b.declare pages a data).perm x ≠ .noAccess)
    (hold : ∀ x, b.perm x ≠ .noAccess → (b.declare pages a data).perm x ≠ .noAccess) :
    (b.declare pages a data).wf := by
  obtain ⟨hcells, -, hbacked⟩ := hb
  refine ⟨writeContent_canonical _ _ _ hcells, hpages, fun c hc => ?_⟩
  rcases mem_writeContent hc with ⟨hlo, hhi⟩ | hc
  · exact hnew c.1 hlo hhi
  · exact hold c.1 (hbacked c hc)

theorem perm_declare_placePages (b : Builder) (p : Page) (lo count a x : Nat) (data : List Byte) :
    (b.declare (placePages b.pages p lo count) a data).perm x =
      if lo ≤ pageNumber x ∧ pageNumber x < lo + count then p.perm (pageOffset x) else b.perm x := by
  have hfind := findPage_placePages b.pages p lo count (pageNumber x)
  split
  · rename_i hin
    exact pagePerm_of_findPage (hfind.trans (if_pos hin))
  · rename_i hout
    exact pagePerm_congr (hfind.trans (if_neg hout))

/-! ### Whole pages -/

/-- What a declaration of whole pages has checked, and what it makes (R72). -/
theorem declarePages_cases {b c : Builder} {p : Page} {start stop : Nat} {data : List Byte}
    (h : b.declarePages p start stop data = .next c) :
    (pageOffset start = 0 ∧ pageOffset stop = 0 ∧ start < stop ∧ stop ≤ Config.memSize ∧ start + data.length ≤ stop) ∧
      (∀ q ∈ b.pages, ¬ (pageNumber start ≤ q.1 ∧ q.1 < pageNumber stop)) ∧
      c = b.declare (placePages b.pages p (pageNumber start) (pageNumber stop - pageNumber start)) start data := by
  unfold Builder.declarePages at h
  split at h
  · exact absurd h (by simp)
  · split at h
    · exact absurd h (by simp)
    · rename_i hrange
      split at h
      · exact absurd h (by simp)
      · rename_i hpages
        exact ⟨by omega, by simpa using hpages, (Host.Outcome.next.inj h).symm⟩

/-- The bytes of whole pages are those of the pages' numbers (R53). -/
theorem pageNumber_mem_iff {start stop x : Nat} (hstart : pageOffset start = 0) (hstop : pageOffset stop = 0) :
    (pageNumber start ≤ pageNumber x ∧ pageNumber x < pageNumber stop) ↔ (start ≤ x ∧ x < stop) := by
  rw [← Nat.not_lt, pageNumber_lt_iff hstart, Nat.not_lt, pageNumber_lt_iff hstop]

/-- A declaration of whole pages, each byte of which has a permission, does what R72 says of it. -/
theorem declarePages_declares {b c : Builder} {p : Page} {start stop : Nat} {data : List Byte} (hb : b.wf)
    (hcanonical : p.canonical = true) (haccess : ∀ o, p.perm o ≠ .noAccess)
    (h : b.declarePages p start stop data = .next c) : c.wf ∧ PagesDeclared b c p start stop data := by
  obtain ⟨⟨hstart, hstop, hlt, hmem, hlen⟩, hfree, rfl⟩ := declarePages_cases h
  obtain ⟨-, hpages, -⟩ := id hb
  have hcount := Nat.add_sub_cancel' (pageNumber_le hlt.le)
  have hfind := findPage_placePages b.pages p (pageNumber start) (pageNumber stop - pageNumber start)
  have hperm (x : Nat) :=
    perm_declare_placePages b p (pageNumber start) (pageNumber stop - pageNumber start) start x data
  simp only [hcount, pageNumber_mem_iff hstart hstop] at hfind hperm
  have hundeclared {x : Nat} (hx : start ≤ x ∧ x < stop) : b.perm x = .noAccess := by
    refine pagePerm_of_noPage (findPage_none_of fun q hq hqx => hfree q hq ?_)
    rw [hqx]
    exact (pageNumber_mem_iff hstart hstop).2 hx
  refine ⟨declare_wf hb (placePages_canonical _ _ _ _ hpages hcanonical ?_) (fun x hlo hhi => ?_) (fun x hx => ?_),
    hfind, contentWritten_declare _ _ _ _, fun x hlo hhi => ?_⟩
  · rw [hcount]
    exact pageNumber_le hmem
  · rw [hperm, if_pos ⟨hlo, by omega⟩]
    exact haccess _
  · rw [hperm, if_neg fun hin => hx (hundeclared hin)]
    exact hx
  · exact (readCell_writeContent_other b.cells start data x (.inr hlo)).trans
      (readCell_of_undeclared hb (hundeclared ⟨by omega, hhi⟩))

/-! ### Chunks -/

/-- The permission of a chunk's bytes (R57). -/
def chunkPerm (writeable : Bool) : Perm := if writeable then .readWrite else .readOnly

theorem chunkPerm_ne_noAccess (writeable : Bool) : chunkPerm writeable ≠ .noAccess := by cases writeable <;> decide

theorem perm_chunked_insertChunk {cs : List Chunk} {c : Chunk} (h : chunksCanonical cs) (hc : c.start < c.stop)
    (hs : c.stop ≤ Config.pageSize) (ha : ∀ d ∈ cs, d.stop ≤ c.start ∨ c.stop ≤ d.start) (o : Nat) :
    (Page.chunked (insertChunk c cs)).perm o =
      if c.start ≤ o ∧ o < c.stop then chunkPerm c.writeable else (Page.chunked cs).perm o := by
  have hcover := coveringChunk_insertChunk h hc hs ha o
  by_cases ho : c.start ≤ o ∧ o < c.stop
  · rw [if_pos ho] at hcover ⊢
    simp only [Page.perm, hcover, chunkPerm]
  · rw [if_neg ho] at hcover ⊢
    simp only [Page.perm, hcover]

/-- The chunks of a page that is not declared whole: canonical, and what gives the page's bytes their permission. -/
theorem chunksAt_spec {b : Builder} {n : Nat} {cs : List Chunk} (hb : b.wf) (h : b.chunksAt n = some cs) :
    chunksCanonical cs ∧ ∀ x, pageNumber x = n → b.perm x = (Page.chunked cs).perm (pageOffset x) := by
  unfold Builder.chunksAt at h
  split at h
  · rename_i hnone
    obtain rfl : [] = cs := Option.some.inj h
    exact ⟨by simp [chunksCanonical], fun x hx => pagePerm_of_noPage (hx ▸ hnone)⟩
  · rename_i cs' hsome
    obtain rfl : cs' = cs := Option.some.inj h
    obtain ⟨-, ⟨-, hpages⟩, -⟩ := hb
    obtain ⟨-, hcanonical⟩ := hpages _ (mem_of_findPage hsome)
    exact ⟨by simpa [Page.canonical] using hcanonical, fun x hx => pagePerm_of_findPage (hx ▸ hsome)⟩
  · exact absurd h (by simp)
  · exact absurd h (by simp)

/-- The chunk that a declaration of [start, stop) puts into its page (R57, R72). -/
def chunkOf (writeable : Bool) (start stop : Nat) : Chunk :=
  { start := pageOffset start, stop := pageOffset start + (stop - start), writeable := writeable }

/-- b with the chunk of [start, stop) beside the chunks cs of its page, and with data from start on (R72). -/
def Builder.withChunk (b : Builder) (writeable : Bool) (start stop : Nat) (cs : List Chunk) (data : List Byte) :
    Builder :=
  b.declare (placePages b.pages (.chunked (insertChunk (chunkOf writeable start stop) cs)) (pageNumber start) 1)
    start data

/-- What a declaration of a chunk has checked, and what it makes (R72). -/
theorem declareChunk_cases {b c : Builder} {writeable : Bool} {start stop : Nat} {data : List Byte}
    (h : b.declareChunk writeable start stop data = .next c) :
    (start < stop ∧ stop ≤ Config.memSize ∧ start + data.length ≤ stop ∧ pageNumber start = pageNumber (stop - 1)) ∧
      ∃ cs, b.chunksAt (pageNumber start) = some cs ∧
        cs.any (fun d => (chunkOf writeable start stop).overlaps d) = false ∧
        c = b.withChunk writeable start stop cs data := by
  unfold Builder.declareChunk at h
  split at h
  · exact absurd h (by simp)
  · split at h
    · exact absurd h (by simp)
    · rename_i hrange
      split at h
      · exact absurd h (by simp)
      · rename_i hpage
        simp only at h
        split at h
        · exact absurd h (by simp)
        · rename_i cs hcs
          split at h
          · exact absurd h (by simp)
          · rename_i hoverlap
            exact ⟨by omega, cs, hcs, Bool.eq_false_iff.2 hoverlap, (Host.Outcome.next.inj h).symm⟩

/-- The chunk of [start, stop) lies in its page and covers just these bytes of it (R57). -/
theorem chunkOf_spec {start stop : Nat} (writeable : Bool) (hlt : start < stop)
    (hpage : pageNumber start = pageNumber (stop - 1)) :
    (chunkOf writeable start stop).start < (chunkOf writeable start stop).stop ∧
      (chunkOf writeable start stop).stop ≤ Config.pageSize ∧
      ∀ x, start ≤ x ∧ x < stop ↔ pageNumber x = pageNumber start ∧
        (chunkOf writeable start stop).start ≤ pageOffset x ∧ pageOffset x < (chunkOf writeable start stop).stop := by
  simp only [chunkOf, pageNumber, pageOffset, pageSize_eq] at *
  refine ⟨by omega, by omega, fun x => ?_⟩
  omega

/-- A declared chunk gives its bytes their permission, and no other byte of its page or of another (R57, R72). -/
theorem perm_withChunk {b : Builder} {writeable : Bool} {start stop : Nat} {cs : List Chunk} (hb : b.wf)
    (hlt : start < stop) (hpage : pageNumber start = pageNumber (stop - 1))
    (hcs : b.chunksAt (pageNumber start) = some cs)
    (hoverlap : cs.any (fun d => (chunkOf writeable start stop).overlaps d) = false) (data : List Byte) (x : Nat) :
    (b.withChunk writeable start stop cs data).perm x =
      if start ≤ x ∧ x < stop then chunkPerm writeable else b.perm x := by
  obtain ⟨hnonempty, hstop, hcovers⟩ := chunkOf_spec writeable hlt hpage
  obtain ⟨hchunks, hcsPerm⟩ := chunksAt_spec hb hcs
  rw [Builder.withChunk, perm_declare_placePages,
    perm_chunked_insertChunk hchunks hnonempty hstop (chunk_apart hoverlap)]
  by_cases hx : pageNumber x = pageNumber start
  · rw [if_pos (by omega), hcsPerm x hx]
    simp only [hcovers, hx, true_and]
    rfl
  · rw [if_neg (by omega), if_neg (by simp [hcovers, hx])]

/-- A declaration of a chunk does what R72 says of it. -/
theorem declareChunk_declares {b c : Builder} {writeable : Bool} {start stop : Nat} {data : List Byte} (hb : b.wf)
    (h : b.declareChunk writeable start stop data = .next c) :
    c.wf ∧ ChunkDeclared b c (chunkPerm writeable) start stop data := by
  obtain ⟨⟨hlt, hmem, hlen, hpage⟩, cs, hcs, hoverlap, rfl⟩ := declareChunk_cases h
  obtain ⟨hnonempty, hstop, -⟩ := chunkOf_spec writeable hlt hpage
  obtain ⟨hchunks, -⟩ := chunksAt_spec hb hcs
  obtain ⟨-, hpages, -⟩ := id hb
  have hperm := perm_withChunk hb hlt hpage hcs hoverlap data
  have hfind := findPage_placePages b.pages (.chunked (insertChunk (chunkOf writeable start stop) cs))
    (pageNumber start) 1
  refine ⟨declare_wf hb (placePages_canonical _ _ _ _ hpages ?_ ?_) (fun x hlo hhi => ?_) (fun x hx => ?_),
    ⟨_, (hfind _).trans (if_pos (by exact ⟨le_refl _, Nat.lt_succ_self _⟩))⟩, fun n hn => (hfind n).trans (if_neg ?_),
    hperm, contentWritten_declare _ _ _ _⟩
  · exact decide_eq_true (insertChunk_canonical hchunks hnonempty hstop)
  · exact (pageNumber_lt_iff (b := Config.memSize) (by decide)).2 (hlt.trans_le hmem)
  · exact ((hperm x).trans (if_pos ⟨hlo, by omega⟩)).trans_ne (chunkPerm_ne_noAccess writeable)
  · refine (hperm x).trans_ne ?_
    split
    · exact chunkPerm_ne_noAccess writeable
    · exact hx
  · exact fun hin => hn (Nat.le_antisymm (Nat.le_of_lt_succ hin.2) hin.1)

/-! ### Data and finalize -/

/-- Data goes into declared bytes only, so the builder stays canonical (R72). -/
theorem setData_writes {b c : Builder} {address : Nat} {data : List Byte} (hb : b.wf)
    (h : b.setData address data = .next c) : c.wf ∧ c.pages = b.pages ∧ ContentWritten b c address data := by
  unfold Builder.setData at h
  split at h
  · exact absurd h (by simp)
  · split at h
    · exact absurd h (by simp)
    · rename_i hdeclared
      obtain rfl : b.declare b.pages address data = c := Host.Outcome.next.inj h
      have hdeclared : ∀ k < data.length, b.perm (address + k) ≠ .noAccess := by
        simpa [Builder.perm] using hdeclared
      have hpages : pagesCanonical b.pages := hb.2.1
      refine ⟨declare_wf hb hpages (fun x hlo hhi => ?_) (fun x hx => hx), rfl, contentWritten_declare _ _ _ _⟩
      have hx := hdeclared (x - address) (by omega)
      rwa [Nat.add_sub_cancel' hlo] at hx

theorem refusesEveryCall_of_finalized {b : Builder} (h : b.finalized = true) : RefusesEveryCall b :=
  fun _ _ _ => ⟨if_pos h, if_pos h, if_pos h, if_pos h, if_pos h, if_pos h⟩

/-- What finalize has checked, and what it makes (R73). -/
theorem finalize_cases {b c : Builder} {m : Memory} {sbrk endHeap : Nat} (h : b.finalize sbrk endHeap = .next (m, c)) :
    (pageOffset sbrk = 0 ∧ pageOffset endHeap = 0 ∧ sbrk ≤ endHeap ∧ endHeap ≤ Config.memSize) ∧
      (∀ q ∈ b.pages, ¬ (pageNumber sbrk ≤ q.1 ∧ q.1 < pageNumber endHeap)) ∧
      m = b.toMemory sbrk endHeap ∧ c = { b with finalized := true } := by
  unfold Builder.finalize at h
  split at h
  · exact absurd h (by simp)
  · split at h
    · exact absurd h (by simp)
    · rename_i hcursors
      split at h
      · exact absurd h (by simp)
      · rename_i hpages
        obtain ⟨hm, hc⟩ := Prod.mk.inj (Host.Outcome.next.inj h)
        have htop : endHeap = Config.memSize → pageOffset endHeap = 0 := fun he => he ▸ rfl
        exact ⟨by omega, by simpa using hpages, hm.symm, hc.symm⟩

/-- A canonical layout whose heap range is empty makes a canonical memory (R73). -/
theorem toMemory_wf {b : Builder} {sbrk endHeap : Nat} (hb : b.wf) (hsbrk : pageOffset sbrk = 0)
    (hend : pageOffset endHeap = 0) (hle : sbrk ≤ endHeap) (hmem : endHeap ≤ Config.memSize)
    (hfree : ∀ q ∈ b.pages, ¬ (pageNumber sbrk ≤ q.1 ∧ q.1 < pageNumber endHeap)) : (b.toMemory sbrk endHeap).wf := by
  obtain ⟨hcells, hpages, hbacked⟩ := hb
  refine ⟨hcells, hpages, ⟨le_refl _, hle, hmem, hsbrk, hend⟩, fun q hq => ?_, hbacked⟩
  have hq := hfree q hq
  show q.1 < pageNumber sbrk ∨ pageNumber endHeap ≤ q.1
  omega

end Sys2Proof.Machine
end

section
/-! PROOFS. The settled statements of 20_memory.md. -/

namespace Sys2Proof.Proofs

open Sys2Proof.Machine

/-- Settles O38: the allocator grows the heap exactly where the request is below 2^32 and within the ceiling; what it
leaves of each byte is a rule of its own, and out of memory the policy alone decides. -/
theorem sbrkResult : Obligations.SbrkResult := by
  refine ⟨rfl, fun s rD rA hm => ?_⟩
  intro newV
  refine ⟨fun hlen hend => ?_, fun hoom => ?_⟩
  · obtain ⟨-, -, ⟨hv, hsbrk, htop, -⟩, -⟩ := id hm
    have htop : s.mem.endHeap ≤ 2 ^ 32 := htop
    obtain ⟨m, hgrow⟩ := growHeap_within_ceiling hend
    obtain ⟨hv', hgap, hle⟩ := growHeap_cursors hgrow
    refine ⟨_, exec_sbrk_grows hlen hgrow, ?_, fun q hq => by simp [hq], .refl s, ⟨rfl, rfl⟩, rfl, rfl, hv',
      growHeap_endHeap hgrow, fun hnew => ?_, fun hnew => ?_, fun a hlo hhi => ?_, fun a hlo hin hhi => ?_,
      fun a hlo hhi => readByte_of_noAccess (perm_of_gap ⟨hv'.trans_le hlo, hhi⟩), fun a ha => ?_⟩
    · rw [reg_setReg_self, BitVec.toNat_ofNat, Nat.mod_eq_of_lt (by omega)]
    · obtain ⟨-, -, ⟨-, hmem⟩ | ⟨hlt, -⟩⟩ := growHeap_cases hgrow
      · exact hmem
      · exact absurd hnew hlt.not_ge
    · obtain ⟨halign, hround, hpages⟩ := growHeap_pages hgrow hnew
      exact ⟨halign, hv'.ge.trans hgap, hround, hpages⟩
    · obtain ⟨hperm, hval⟩ := (growHeap_returned hm hgrow hhi).1 hlo
      exact (readByte_of_access (by simp [hperm])).trans (congrArg some hval)
    · exact (growHeap_returned hm hgrow hhi).2 hin
    · obtain ⟨hperm, hval⟩ := growHeap_other hm hgrow ha
      exact readByte_of_perm hperm hval
  · cases hpolicy : Config.sbrkOomPolicy with
    | returnZero =>
      refine ⟨_, exec_sbrk_outOfMemory hoom, ?_⟩
      rw [hpolicy]
      exact ⟨by simp [State.sbrkOom], setReg_frame s rD 0#64⟩
    | panic =>
      refine ⟨_, exec_sbrk_outOfMemory hoom, ?_⟩
      rw [hpolicy]
      exact ⟨rfl, raise_frame s .panic⟩

/-- Settles O39: the store writes the value's bytes, the load reads them back, and eight bytes never meet an address
twice. -/
theorem storeThenLoadReturnsValue : Obligations.StoreThenLoadReturnsValue := by
  intro m a n v hn hw
  have hlen : (leBytes n v.toNat).length = n := leBytes_length n v.toNat
  have hw' : Writeable m a (leBytes n v.toNat).length := by rwa [hlen]
  refine ⟨m.writeBytes a (leBytes n v.toNat), storeFrom_of_writeable hw', ?_, fun k hk => ?_, fun b hb => ?_⟩
  · have hload := loadInto_writeBytes hw' (by omega)
    rw [hlen] at hload
    rw [Memory.memRead, hload, ← leValue_leBytes]
  · rw [readByte_writeBytes_last hw' (by omega), leBytes_getElem? _ hk]
    intro j hkj hj heq
    have := byteAddr_inj (by omega) (by omega) heq
    omega
  · exact readByte_writeBytes_other (by rwa [hlen])

/-- Settles O40: the first request commits page 0; the second one commits page 1 where it passes the boundary. -/
theorem freshHeapTwiceSbrk : Obligations.FreshHeapTwiceSbrk := by
  intro n hpos hlt
  have hfirst : pageRoundUp n = 16384 := pageRoundUp_eq_iff.2 (by omega)
  have hpages : (Memory.fresh.commitHeap n).pages = [(0, .writeable)] := (commitHeap_pages hfirst).trans rfl
  have hgrow : Memory.fresh.growHeap n = some (0, Memory.fresh.commitHeap n) := by
    have hceiling : Memory.fresh.endHeap = 2 ^ 32 := rfl
    have hzero : Memory.fresh.vsbrk + n = n := Nat.zero_add n
    have hcommits := growHeap_commits (m := Memory.fresh) (len := n) (by omega) (hzero.symm ▸ hpos)
    rwa [hzero] at hcommits
  have hceiling : (Memory.fresh.commitHeap n).endHeap = 2 ^ 32 := rfl
  have hcursor : (Memory.fresh.commitHeap n).vsbrk = n := rfl
  have hsbrk : (Memory.fresh.commitHeap n).sbrk = 16384 := hfirst
  rcases Nat.lt_or_ge 16384 (2 * n) with hbeyond | hwithin
  · have hsecond : pageRoundUp (n + n) = 32768 := pageRoundUp_eq_iff.2 (by omega)
    refine ⟨_, _, hgrow, growHeap_commits (by omega) (by omega), hpages, hsbrk, rfl, (Nat.two_mul n).symm, by omega,
      fun _ => ⟨?_, hsecond⟩⟩
    rw [hcursor, commitHeap_pages hsecond, hsbrk, hpages]
    decide
  · exact ⟨_, _, hgrow, growHeap_committed (by omega) (by omega), hpages, hsbrk, rfl, (Nat.two_mul n).symm,
      fun _ => ⟨hpages, hsbrk⟩, by omega⟩

/-- Settles O41: the check looks for a first byte without permission RW, and a store to a span without one faults
nowhere. -/
theorem isWriteableChecksEveryByte : Obligations.IsWriteableChecksEveryByte := by
  intro s a len
  rw [isWriteable_iff]
  refine ⟨by simp only [Writeable, byteAddr_toNat], fun hw bs hbs => ?_⟩
  rw [storeFrom_of_writeable (hbs ▸ hw)]

/-- Settles O42: each call's checks are read off once, and one lemma keeps the canonical form for all declarations. -/
theorem builderCallsKeepCanonicalForm : Obligations.BuilderCallsKeepCanonicalForm := by
  refine ⟨by decide, fun b c hb start stop data => ⟨?_, ?_, ?_, ?_, setData_writes hb, fun m h => ?_⟩⟩
  · exact declarePages_declares hb rfl fun _ => by simp [Page.perm]
  · exact declarePages_declares hb rfl fun _ => by simp [Page.perm]
  · exact declareChunk_declares hb
  · exact declareChunk_declares hb
  · obtain ⟨⟨hsbrk, hend, hle, hmem⟩, hfree, rfl, rfl⟩ := finalize_cases h
    exact ⟨toMemory_wf hb hsbrk hend hle hmem hfree, rfl, rfl, rfl, rfl, rfl, refusesEveryCall_of_finalized rfl⟩

/-- Settles O54: elementary writes touch bytes with permission RW only, and the heap range that sbrk commits holds no
read-only byte. -/
theorem memoryProtectionHolds : Obligations.MemoryProtectionHolds := by
  intro s t hs h
  obtain ⟨hwf, -⟩ := hs
  rcases step_cases h with ⟨-, rfl⟩ | ⟨-, -, rfl⟩ | ⟨-, -, u, hexec, rfl⟩
  · exact ⟨fun _ _ => rfl, fun _ => SameProtection.of_mem rfl⟩
  · exact ⟨fun _ _ => rfl, fun _ => SameProtection.of_mem rfl⟩
  · rw [commit_mem]
    obtain ⟨-, hro⟩ := exec_keepsReadOnly hexec hwf
    have hstart : SameProtection s s.resume.chargeGas.1.clearResult := .of_mem rfl
    exact ⟨fun a ha => (hro a ha).2, fun hsbrk => hstart.trans (exec_sameProtection (by exact hsbrk) hexec)⟩

/-- Settles O60: a host access answers what the memory's own load and store answer, and it is refused exactly while a
run is in progress. -/
theorem hostMemoryAccessLeavesTheRest : Obligations.HostMemoryAccessLeavesTheRest := by
  intro s a bs
  refine ⟨fun hpause => ?_, fun hpause n => ?_, fun hstatus hstarted n => ?_, fun t => step_started,
    fun p initialPC initialGas regs mem t => hostReset_started⟩
  · refine ⟨_, _, hostAccess_of_paused _ hpause, fun _ => rfl, .refl s, ⟨rfl, rfl⟩, storeFrom_sameLayout s a bs, rfl,
      fun b hb => ?_, fun hw => ?_, fun k hk => ?_⟩
    · exact readByte_of_perm (storeFrom_perm s.mem a bs _) (storeFrom_val_protected s.mem a bs b hb)
    · rw [storeFrom_of_writeable hw]
      exact ⟨rfl, bytesStored_writeBytes hw⟩
    · rw [storeFrom_of_unwriteable hk]
      obtain ⟨-, hw, -⟩ := hk
      exact ⟨rfl, bytesStored_writeBytes (hw.mono ((List.length_take_le _ _).trans (bytesBeforePage_le a k)))⟩
  · refine ⟨hostAccess_of_paused _ hpause, fun hread => ?_, fun k hk => ?_⟩
    · exact ⟨_, (hostAccess_of_paused _ hpause).trans (congrArg _ (loadInto_of_readable _ _ _ hread)),
        bytesRead_of_readable hread⟩
    · have hload := loadInto_of_unreadable _ _ _ _ hk
      obtain ⟨-, hread, -⟩ := hk
      exact ⟨_, (hostAccess_of_paused _ hpause).trans (congrArg _ hload), bytesRead_of_readable hread⟩
  · exact ⟨hostAccess_of_running _ hstatus hstarted, hostAccess_of_running _ hstatus hstarted,
      hostAccess_of_running _ hstatus hstarted⟩

/-- Settles O27: truncation to 32 bits is reduction modulo 2^32. -/
theorem effectiveAddresses : Obligations.EffectiveAddresses := by
  intro s r immX a k
  refine ⟨BitVec.toNat_setWidth _ _, ?_, byteAddr_toNat a k⟩
  rw [State.indAddr, u32, BitVec.toNat_setWidth, BitVec.toNat_add, Nat.mod_mod_of_dvd _ (by decide)]

end Sys2Proof.Proofs
end

section
/-! PROOFS. What the decoder reads as numbers: the row behind an opcode byte, the registers, immediates and targets that
fields select, and the mask bits that the instruction length passes over (30_encoding.md sections 2 to 4). -/

namespace Sys2Proof.Machine

/-! ### The opcode map -/

/-- A property of every opcode byte, checked one high nibble at a time. -/
theorem forall_opcode {P : Nat → Prop} (h : ∀ hi, hi < 16 → ∀ lo, lo < 16 → P (16 * hi + lo)) :
    ∀ op, op < 256 → P op := by
  intro op hop
  simpa only [Nat.div_add_mod] using h (op / 16) (by omega) (op % 16) (by omega)

/-- The number of unassigned opcode bytes, counted in two halves (R104). -/
theorem countP_unassignedOpcode : (List.range 256).countP unassignedOpcode = 117 := by
  rw [show 256 = 128 + 128 from rfl, List.range_add, List.countP_append, List.countP_map]
  decide

/-- Every unassigned opcode byte, range by range, has the row of a trap (R104). -/
theorem opcodeMap_of_unassigned {op : Nat} (h : unassignedOpcode op = true) : opcodeMap op = .noArgs .trap := by
  simp only [unassignedOpcode, Bool.or_eq_true, Bool.and_eq_true, decide_eq_true_eq, or_assoc] at h
  rcases h with ⟨hlo, hhi⟩ | ⟨hlo, hhi⟩ | ⟨hlo, hhi⟩ | ⟨hlo, hhi⟩ | ⟨hlo, hhi⟩ | ⟨hlo, hhi⟩ | ⟨hlo, hhi⟩ | ⟨hlo, hhi⟩ |
    ⟨hlo, hhi⟩ | ⟨hlo, hhi⟩ | ⟨hlo, hhi⟩ | ⟨hlo, hhi⟩ | ⟨hlo, hhi⟩ <;> interval_cases op <;> rfl

/-- The decoder reads the fields of the row at the opcode byte (R102, R103). -/
theorem decode_of_row {p : Program} {pc : Addr} {r : Row} (h : opcodeMap (p.codeByte pc.toNat).toNat = r) :
    decode p pc = (r.read (fun k => p.codeByte (pc.toNat + k)) (p.skip pc.toNat) pc, p.skip pc.toNat) := by
  rw [decode, h]

/-- The byte at or past the end of code is 0, the opcode of trap (R83, R110). -/
theorem codeByte_of_length_le {p : Program} {k : Nat} (h : p.code.length ≤ k) : p.codeByte k = 0 := by
  simp [Program.codeByte, List.getD_eq_getElem?_getD, h]

/-! ### Registers -/

theorem isRegister_regLo (b : Byte) : IsRegister (b.toNat % 16) (regLo b) := rfl

theorem isRegister_regHi (b : Byte) : IsRegister (b.toNat / 16) (regHi b) := rfl

theorem isRegister_regByte (b : Byte) : IsRegister b.toNat (regByte b) := rfl

/-! ### Immediates and targets -/

theorem leValue_bytesAt (c : Nat → Byte) (p l : Nat) : leValue (bytesAt c p l) = fieldSum c p l :=
  leValue_range _ l

theorem leValue_lt (bs : List Byte) : leValue bs < 256 ^ bs.length := by
  induction bs with
  | nil => simp [leValue]
  | cons b bs ih =>
    have hb : b.toNat < 256 := b.isLt
    rw [leValue, List.length_cons, pow_succ]
    omega

theorem extImm_toNat (c : Nat → Byte) : (extImm c).toNat = fieldSum c 2 8 := by
  have hlt : leValue (bytesAt c 2 8) < 2 ^ 64 := by simpa using leValue_lt (bytesAt c 2 8)
  rw [extImm, BitVec.toNat_ofNat, Nat.mod_eq_of_lt hlt, leValue_bytesAt]

/-- The bytes of a field, sign-extended, are its two's complement number (R87). -/
theorem isImmediate_immAt (c : Nat → Byte) (p : Nat) {l : Nat} (hl : l ≤ 4) : IsImmediate c p l (immAt c p l) := by
  rw [IsImmediate, immAt, sextBytes, BitVec.toInt_signExtend_of_le (by omega), BitVec.toInt_ofNat', leValue_bytesAt,
    fieldSigned, pow_mul]
  rfl

theorem isImmediate_lenField (c : Nat → Byte) (p n : Nat) : IsImmediate c p (lenField n) (immAt c p (lenField n)) :=
  isImmediate_immAt c p (lenField_le n)

theorem isImmediate_lenRest (c : Nat → Byte) (p n : Nat) : IsImmediate c p (lenRest n) (immAt c p (lenRest n)) :=
  isImmediate_immAt c p (lenRest_le n)

/-- Adding the low half of an offset adds its signed value, modulo 2^32 (R88). -/
theorem relTarget_toNat (pc : Addr) (offset : Word) :
    ((relTarget pc offset).toNat : Int) = ((pc.toNat : Int) + offset.toInt) % 2 ^ 32 := by
  have hoffset : offset.toInt = (offset.toNat : Int) ∨ offset.toInt = (offset.toNat : Int) - 2 ^ 64 := by
    rw [BitVec.toInt_eq_toNat_cond]
    split
    · exact .inl rfl
    · exact .inr rfl
  rw [relTarget, BitVec.toNat_add, BitVec.toNat_setWidth]
  omega

theorem isTarget_lenRest (pc : Addr) (c : Nat → Byte) (p n : Nat) :
    IsTarget pc c p (lenRest n) (relTarget pc (immAt c p (lenRest n))) := by
  have himm : (immAt c p (lenRest n)).toInt = _ := isImmediate_lenRest c p n
  rw [IsTarget, relTarget_toNat, himm]

/-! ### The mask -/

/-- With one mask bit for each code byte, a mask bit reads as it stands, or as 1 past the end of code (R83). -/
theorem maskBit_cases {p : Program} (hlen : p.mask.length = p.code.length) (k : Nat) :
    p.mask[k]? = some (p.maskBit k) ∨ (p.code.length ≤ k ∧ p.maskBit k = true) := by
  rcases Nat.lt_or_ge k p.code.length with hin | hpast
  · exact .inl (by simp [Program.maskBit, hin, hlen, List.getD_eq_getElem?_getD])
  · exact .inr ⟨hpast, if_neg (Nat.not_lt_of_le hpast)⟩

end Sys2Proof.Machine
end

section
/-! PROOFS. The step that runs the instruction decoded at pc, and the step of a trap (40_dispatch.md R108). -/

namespace Sys2Proof.Machine

/-- With gas, the gas check takes one unit and nothing else (R15, R111). -/
theorem chargeGas_of_pos {s : State} (h : 1 ≤ s.gas.toNat) : s.chargeGas = ({ s with gas := s.gas - 1#64 }, false) := by
  rcases gasSub_cases s.gas (Config.gasCost s.fetchOpcode) with ⟨hlt, -⟩ | ⟨-, heq⟩
  · exact absurd h (Nat.not_le_of_lt hlt)
  · rw [State.chargeGas, heq]
    rfl

/-- A step from OK or HOST with gas runs the instruction that stands at pc and commits its record (R108, R111). -/
theorem step_of_decode {s u : State} {i : Instr} {l : Nat} (hs : Runnable s) (hgas : 1 ≤ s.gas.toNat)
    (hdecode : decode s.prog s.pc = (i, l)) (hexec : exec i s.resume.chargeGas.1.clearResult = .next u) :
    step s = .next (u.commit l) := by
  have hcharge : s.resume.chargeGas = (s.resume.chargeGas.1, false) := by
    rw [chargeGas_of_pos (s := s.resume) hgas]
  have hfetch : s.resume.chargeGas.1.fetch = (i, l) := hdecode
  rw [step, isFinal_of_runnable hs, hcharge]
  simp only [runFetched, hfetch, hexec, Bool.false_eq_true, if_false]

/-- A trap at pc charges its gas unit and ends the step in PANIC where it is (R254). -/
theorem step_of_decode_trap {s : State} {l : Nat} (hs : Runnable s) (hgas : 1 ≤ s.gas.toNat)
    (hdecode : decode s.prog s.pc = (.trap, l)) : ∃ t, step s = .next t ∧ PanicsInPlace s t := by
  refine ⟨_, step_of_decode hs hgas hdecode rfl, rfl, rfl, rfl, ?_, fun _ => rfl, ⟨rfl, fun _ => rfl⟩, rfl, rfl⟩
  have hcharged : s.resume.chargeGas.1.gas.toNat + 1 = s.gas.toNat := by
    rw [chargeGas_gas, resume_gas, Nat.sub_add_cancel hgas]
  exact hcharged

end Sys2Proof.Machine
end

section
/-! PROOFS. The settled statements of 30_encoding.md. -/

namespace Sys2Proof.Proofs

open Sys2Proof.Machine

/-- Settles O1: the row at the opcode reads the record that its fields spell, and these are the fields encoded. -/
theorem decodeInvertsEncode : Obligations.DecodeInvertsEncode :=
  fun _ _ _ _ _ hX hY hfits h => decode_of_holds hX hY hfits h

/-- Settles O4: `skipFrom` counts mask bits 0 up to the first 1, and the mask reads 1 past the end of code. -/
theorem instructionLengthFromMask : Obligations.InstructionLengthFromMask := by
  intro p pc hlen n l
  obtain ⟨hle, hpassed, hstop⟩ := skipFrom_spec p 24 (n + 1)
  refine ⟨hle, fun j hj => ?_, fun hlt => ?_⟩
  · rcases maskBit_cases hlen (n + 1 + j) with hbit | ⟨-, hone⟩
    · exact hbit.trans (congrArg some (hpassed j hj))
    · exact absurd ((hpassed j hj).symm.trans hone) (by simp)
  · rcases maskBit_cases hlen (n + 1 + l) with hbit | ⟨hpast, -⟩
    · exact .inl (hbit.trans (congrArg some (hstop hlt)))
    · exact .inr hpast

/-- Settles O5: both an unassigned opcode and the byte past the end of code select a row that makes a trap. -/
theorem unassignedOpcodesAndFetchPastEndPanic : Obligations.UnassignedOpcodesAndFetchPastEndPanic := by
  refine ⟨countP_unassignedOpcode, fun op => opcodeMap_of_unassigned, fun s hs hgas hop => ?_⟩
  have hrow : opcodeMap (s.prog.codeByte s.pc.toNat).toNat = .noArgs .trap := by
    rcases hop with hunassigned | hend
    · exact opcodeMap_of_unassigned hunassigned
    · rw [codeByte_of_length_le hend]
      rfl
  exact step_of_decode_trap hs hgas (decode_of_row hrow)

/-- Settles O7: the opcode map checked byte by byte; a row without immediates reads registers only. -/
theorem registerShapesDecode : Obligations.RegisterShapesDecode := by
  refine ⟨forall_opcode (by decide), ?_⟩
  intro p pc c l
  refine ⟨?_, ?_, ?_⟩
  · intro mk h
    exact decode_of_row h
  · intro mk h
    exact ⟨_, _, decode_of_row h, isRegister_regLo _, isRegister_regHi _⟩
  · intro mk h
    exact ⟨_, _, _, decode_of_row h, isRegister_regLo _, isRegister_regHi _, isRegister_regByte _⟩

/-- Settles O8: the opcode map checked byte by byte; an immediate's value is the signed number its bytes spell. -/
theorem immediateShapesDecode : Obligations.ImmediateShapesDecode := by
  refine ⟨forall_opcode (by decide), ?_⟩
  intro p pc c l
  refine ⟨?_, ?_, ?_, ?_⟩
  · intro mk h
    exact ⟨_, decode_of_row h, isImmediate_lenRest c 1 l⟩
  · intro mk h
    exact ⟨_, _, decode_of_row h, isRegister_regLo _, extImm_toNat c⟩
  · intro mk h
    exact ⟨_, _, decode_of_row h, isRegister_regLo _, isImmediate_lenRest c 2 (l - 1)⟩
  · intro mk h
    exact ⟨_, _, _, decode_of_row h, isRegister_regLo _, isRegister_regHi _, isImmediate_lenRest c 2 (l - 1)⟩

/-- Settles O9: the opcode map checked byte by byte; the first immediate has the length its field gives, the
second what is left. -/
theorem twoImmediateShapesDecode : Obligations.TwoImmediateShapesDecode := by
  refine ⟨forall_opcode (by decide), ?_⟩
  intro p pc c l
  refine ⟨?_, ?_, ?_⟩
  · intro mk h lX
    exact ⟨_, _, decode_of_row h, isImmediate_lenField c 2 _, isImmediate_lenRest c (2 + lX) (l - lX - 1)⟩
  · intro mk h lX
    exact ⟨_, _, _, decode_of_row h, isRegister_regLo _, isImmediate_lenField c 2 _,
      isImmediate_lenRest c (2 + lX) (l - lX - 1)⟩
  · intro mk h lX
    exact ⟨_, _, _, _, decode_of_row h, isRegister_regLo _, isRegister_regHi _, isImmediate_lenField c 3 _,
      isImmediate_lenRest c (3 + lX) (l - lX - 2)⟩

/-- Settles O10: the opcode map checked byte by byte; a target adds the signed number its field spells to pc. -/
theorem offsetShapesDecode : Obligations.OffsetShapesDecode := by
  refine ⟨forall_opcode (by decide), ?_⟩
  intro p pc c l
  refine ⟨?_, ?_, ?_⟩
  · intro mk h
    exact ⟨_, decode_of_row h, isTarget_lenRest pc c 1 l⟩
  · intro mk h lX
    exact ⟨_, _, _, decode_of_row h, isRegister_regLo _, isImmediate_lenField c 2 _,
      isTarget_lenRest pc c (2 + lX) (l - lX - 1)⟩
  · intro mk h
    exact ⟨_, _, _, decode_of_row h, isRegister_regLo _, isRegister_regHi _, isTarget_lenRest pc c 2 (l - 1)⟩

/-- Settles O43: the gas check leaves the state that the statement writes out. -/
theorem stepRunsDecodedInstruction : Obligations.StepRunsDecodedInstruction := by
  intro s u i l hs hgas hdecode hexec
  refine step_of_decode hs hgas hdecode ?_
  rw [chargeGas_of_pos (s := s.resume) hgas]
  exact hexec

end Sys2Proof.Proofs
end

section
/-! PROOFS. The basic-block set, element by element (40_dispatch.md section 3). -/

namespace Sys2Proof.Machine

/-- The ranges of the terminator set are the 22 opcodes that the rule lists (R118). -/
theorem isTerminator_iff (op : Nat) : isTerminator op = true ↔ op ∈ terminatorOpcodes := by
  simp only [isTerminator, terminatorOpcodes, Bool.or_eq_true, Bool.and_eq_true, beq_iff_eq, decide_eq_true_eq,
    List.mem_cons, List.not_mem_nil, or_false]
  omega

/-- An instruction start inside the code is a mask bit that is there and 1 (R106). -/
theorem maskBit_inside_iff {p : Program} (hlen : p.mask.length = p.code.length) (k : Nat) :
    k < p.code.length ∧ p.maskBit k = true ↔ p.mask[k]? = some true := by
  rcases maskBit_cases hlen k with hbit | ⟨hpast, -⟩
  · obtain ⟨hin, -⟩ := List.getElem?_eq_some_iff.1 hbit
    rw [hbit, Option.some_inj, and_iff_right (hlen ▸ hin)]
  · simp [Nat.not_lt_of_le hpast, List.getElem?_eq_none (hlen ▸ hpast)]

theorem code_getElem?_iff (p : Program) (k : Nat) (b : Byte) :
    p.code[k]? = some b ↔ k < p.code.length ∧ p.codeByte k = b := by
  rw [List.getElem?_eq_some_iff]
  constructor
  · rintro ⟨hin, h⟩
    exact ⟨hin, by simp [Program.codeByte, hin, h]⟩
  · rintro ⟨hin, h⟩
    exact ⟨hin, by simpa [Program.codeByte, hin] using h⟩

theorem mem_blockEnds (p : Program) (k : Nat) :
    k ∈ p.blockEnds ↔ ∃ n, n < p.code.length ∧ p.maskBit n = true ∧ isTerminator (p.codeByte n).toNat = true ∧
      k = n + 1 + p.skip n := by
  simp only [Program.blockEnds, List.mem_map, List.mem_filter, List.mem_range, Bool.and_eq_true, and_assoc,
    eq_comm (a := k)]

theorem mem_basicBlocks (p : Program) (k : Nat) :
    k ∈ p.basicBlocks ↔ (k = 0 ∨ k ∈ p.blockEnds) ∧ k < p.code.length ∧ p.maskBit k = true := by
  simp [Program.basicBlocks, and_comm, and_left_comm]

/-- What follows a terminator, in terms of the code and mask as they stand (R119). -/
theorem mem_blockEnds_iff {p : Program} (hlen : p.mask.length = p.code.length) (k : Nat) :
    k ∈ p.blockEnds ↔ ∃ n b, p.code[n]? = some b ∧ p.mask[n]? = some true ∧ b.toNat ∈ terminatorOpcodes ∧
      k = n + 1 + p.skip n := by
  simp only [mem_blockEnds, code_getElem?_iff, ← maskBit_inside_iff hlen, ← isTerminator_iff]
  constructor
  · rintro ⟨n, hin, hmask, hterm, hk⟩
    exact ⟨n, _, ⟨hin, rfl⟩, ⟨hin, hmask⟩, hterm, hk⟩
  · rintro ⟨n, b, ⟨hin, rfl⟩, ⟨-, hmask⟩, hterm, hk⟩
    exact ⟨n, hin, hmask, hterm, hk⟩

end Sys2Proof.Machine
end

section
/-! PROOFS. Noninterference: an operation commutes with any change of the driver state, of the code and of the mask
(40_dispatch.md R116, R117). -/

namespace Sys2Proof.Machine

/-- The part of the state that no operation reads or writes: the driver state, the code and the mask (R117). -/
structure Driver where
  pc : Addr
  gas : Word
  status : Status
  exitParam : Option (BitVec 32)
  started : Bool
  code : List Byte
  mask : List Bool

/-- The state with that part replaced. -/
def State.withDriver (s : State) (d : Driver) : State :=
  { s with
    pc := d.pc
    gas := d.gas
    status := d.status
    exitParam := d.exitParam
    started := d.started
    prog := { s.prog with code := d.code, mask := d.mask } }

theorem condMove_withDriver (s : State) (d : Driver) (c : Bool) (r : Reg) (v : Word) :
    (s.withDriver d).condMove c r v = (s.condMove c r v).withDriver d := by
  cases c <;> rfl

theorem load_withDriver (s : State) (d : Driver) (r : Reg) (a : Addr) (n : Nat) (ext : Word → Word) :
    (s.withDriver d).load r a n ext = (s.load r a n ext).withDriver d := by
  rcases readable_or_first s.mem a n with h | ⟨k, h⟩
  · rw [load_of_readable h, load_of_readable (s := s.withDriver d) h]
    rfl
  · rw [load_of_unreadable h, load_of_unreadable (s := s.withDriver d) h]
    rfl

theorem store_withDriver (s : State) (d : Driver) (a : Addr) (n : Nat) (v : Word) :
    (s.withDriver d).store a n v = (s.store a n v).withDriver d := by
  have hmem : (s.withDriver d).mem = s.mem := rfl
  simp only [State.store, hmem]
  rcases s.mem.memWrite a n v with ⟨m, _ | f⟩ <;> rfl

theorem branch_withDriver (s : State) (d : Driver) (t : Addr) (c : Bool) :
    (s.withDriver d).branch t c = (s.branch t c).withDriver d := by
  have hblock : (s.withDriver d).isBlockStart t = s.isBlockStart t := rfl
  unfold State.branch
  rw [hblock]
  cases c with
  | false => rfl
  | true => cases s.isBlockStart t <;> rfl

/-- A dynamic jump reads the jump table and the basic-block set, which stay (R121, R252). -/
theorem djump_withDriver (s : State) (d : Driver) (a : Addr) :
    (s.withDriver d).djump a = (s.djump a).withDriver d := by
  have hentry : (s.withDriver d).jumpEntry a = s.jumpEntry a := rfl
  unfold State.djump
  rw [hentry]
  split
  · rfl
  · split
    · rfl
    · rcases s.jumpEntry a with _ | t
      · rfl
      · exact branch_withDriver s d t true

theorem sbrkWith_withDriver (s : State) (d : Driver) (p : SbrkOomPolicy) (rD rA : Reg) :
    (s.withDriver d).sbrkWith p rD rA = (s.sbrkWith p rD rA).withDriver d := by
  have hrequest : (s.withDriver d).heapRequest ((s.withDriver d).reg rA) = s.heapRequest (s.reg rA) := rfl
  unfold State.sbrkWith
  rw [hrequest]
  rcases s.heapRequest (s.reg rA) with _ | ⟨prev, m⟩
  · cases p <;> rfl
  · rfl

theorem next_congr {t u : State} (h : t = u) : (.next t : Host.Outcome State Fault Refusal) = .next u := congrArg _ h

/-- Every instruction does the same in a state that differs in this part only, and leaves it as it stands (R117). -/
theorem exec_withDriver (i : Instr) (s : State) (d : Driver) :
    ∃ t, exec i s = .next t ∧ exec i (s.withDriver d) = .next (t.withDriver d) := by
  cases i with
  | sbrk => exact ⟨_, rfl, next_congr (sbrkWith_withDriver s d _ _ _)⟩
  | jump | branchEqImm | branchNeImm | branchLtUImm | branchLeUImm | branchGeUImm | branchGtUImm | branchLtSImm
  | branchLeSImm | branchGeSImm | branchGtSImm | branchEq | branchNe | branchLtU | branchLtS | branchGeU | branchGeS =>
    exact ⟨_, rfl, next_congr (branch_withDriver s d _ _)⟩
  | jumpInd => exact ⟨_, rfl, next_congr (djump_withDriver s d _)⟩
  | loadImmJump rA immX => exact ⟨_, rfl, next_congr (branch_withDriver (s.setReg rA immX) d _ _)⟩
  | loadImmJumpInd rA rB immX => exact ⟨_, rfl, next_congr (djump_withDriver (s.setReg rA immX) d _)⟩
  | loadU8 | loadI8 | loadU16 | loadI16 | loadU32 | loadI32 | loadU64 | loadIndU8 | loadIndI8 | loadIndU16 | loadIndI16
  | loadIndU32 | loadIndI32 | loadIndU64 => exact ⟨_, rfl, next_congr (load_withDriver s d _ _ _ _)⟩
  | storeU8 | storeU16 | storeU32 | storeU64 | storeIndU8 | storeIndU16 | storeIndU32 | storeIndU64 | storeImmU8
  | storeImmU16 | storeImmU32 | storeImmU64 | storeImmIndU8 | storeImmIndU16 | storeImmIndU32 | storeImmIndU64 =>
    exact ⟨_, rfl, next_congr (store_withDriver s d _ _ _)⟩
  | cmovIz | cmovNz | cmovIzImm | cmovNzImm => exact ⟨_, rfl, next_congr (condMove_withDriver s d _ _ _)⟩
  | _ => exact ⟨_, rfl, rfl⟩

end Sys2Proof.Machine
end

section
/-! PROOFS. What a commit makes of each record, that every step completes, and that a run ends (40_dispatch.md R109 to
R115). -/

namespace Sys2Proof.Machine

/-! ### Commit, record by record -/

theorem nextPc_eq (s : State) (l : Nat) : s.nextPc l = BitVec.ofNat 32 (s.pc.toNat + 1 + l) :=
  BitVec.eq_of_toNat_eq (by rw [nextPc_toNat, BitVec.toNat_ofNat])

theorem commit_of_kind {s : State} {k : ExitKind} (l : Nat) (h : s.result.kind = some k) :
    s.commit l = s.takeExit l k := by
  rw [State.commit, h]

theorem commit_of_target {s : State} {t : Addr} (l : Nat) (h : s.result = jumpRecord t) :
    s.commit l = { s with pc := t, status := .ok, exitParam := none } := by
  rw [State.commit, h]
  rfl

theorem commit_of_empty {s : State} (l : Nat) (h : s.result = { kind := none, nextPc := none }) :
    s.commit l = { s with pc := s.nextPc l, status := .ok, exitParam := none } := by
  rw [State.commit, h]

theorem commitsTo_update (s : State) (pc : Addr) (status : Status) (exitParam : Option (BitVec 32)) (gas : Word) :
    CommitsTo s { s with pc := pc, status := status, exitParam := exitParam, gas := gas } pc status exitParam gas :=
  ⟨rfl, rfl, rfl, rfl, fun _ => rfl, ⟨rfl, fun _ => rfl⟩, rfl, rfl⟩

/-- The gas that a memory fault's extra charge leaves (R113). -/
theorem gasSub_trap (gas : Word) :
    (gasSub gas (Config.gasCost Config.trapOpcode)).1 = if gas.toNat < 1 then 0#64 else gas - 1#64 :=
  apply_ite Prod.fst (gas.toNat < 1) (0#64, true) (gas - 1#64, false)

/-! ### Steps -/

theorem step_of_isFinal {s : State} (h : s.status.isFinal = true) : step s = .next s := if_pos h

theorem step_of_no_gas {s : State} (hs : Runnable s) (hgas : s.gas.toNat = 0) :
    step s = .next s.resume.chargeGas.1.outOfGas := by
  have hunderflow : s.resume.chargeGas = (s.resume.chargeGas.1, true) :=
    Prod.ext rfl ((chargeGas_underflow s.resume).2 hgas)
  rw [step, isFinal_of_runnable hs, hunderflow]
  rfl

/-- With gas, the step completes and ends with a commit (R108, R111). -/
theorem step_of_gas {s : State} (hs : Runnable s) (hgas : 1 ≤ s.gas.toNat) :
    ∃ u : State, step s = .next (u.commit (decode s.prog s.pc).2) := by
  obtain ⟨u, hexec, -⟩ := exec_cases (decode s.prog s.pc).1 s.resume.chargeGas.1.clearResult
  exact ⟨u, step_of_decode hs hgas rfl hexec⟩

theorem isFinal_or_runnable (s : State) : s.status.isFinal = true ∨ Runnable s := by
  unfold Runnable
  cases s.status <;> simp [Status.isFinal]

/-- No step faults or is refused (R280). -/
theorem step_completes (s : State) : ∃ t, step s = .next t := by
  rcases isFinal_or_runnable s with hfinal | hs
  · exact ⟨s, step_of_isFinal hfinal⟩
  · rcases Nat.eq_zero_or_pos s.gas.toNat with hzero | hpos
    · exact ⟨_, step_of_no_gas hs hzero⟩
    · obtain ⟨u, hu⟩ := step_of_gas hs hpos
      exact ⟨_, hu⟩

/-- A step that ends OK has paid gas (R111). -/
theorem step_gas_lt {s t : State} (h : step s = .next t) (hok : t.status = .ok) : t.gas.toNat < s.gas.toNat := by
  rcases isFinal_or_runnable s with hfinal | hs
  · obtain rfl : s = t := Host.Outcome.next.inj ((step_of_isFinal hfinal).symm.trans h)
    simp [hok, Status.isFinal] at hfinal
  · rcases step_cases_of_runnable hs h with ⟨-, hoog, -⟩ | ⟨hpos, u, hu, -, -, -, rfl⟩
    · simp [hok] at hoog
    · have hle := commit_gas_le u (s.prog.skip s.pc.toNat)
      omega

/-- From HOST a step starts as from OK without an exit parameter (R109, R291). -/
theorem step_of_host {s : State} (h : s.status = .host) :
    step s = step { s with status := .ok, exitParam := none } := by
  rw [step, h]
  rfl

/-! ### Runs -/

/-- Within `fuel` steps from s comes the first one that does not end OK, and `runFor` stops there (R115). -/
def RunEndsWithin (fuel : Nat) (s : State) : Prop :=
  ∃ (n : Nat) (t : State), 0 < n ∧ n ≤ fuel ∧ runFor fuel s = .next t ∧ t.status ≠ .ok ∧
    Host.Core.run core n s = .next t ∧
    ∀ k, 0 < k → k < n → ∃ u : State, Host.Core.run core k s = .next u ∧ u.status = .ok

theorem coreRun_succ {M : Host.Core} {s t : M.State} (h : M.step s = .next t) (k : Nat) :
    M.run (k + 1) s = M.run k t := by
  rw [Host.Core.run, h]

theorem runFor_of_ok {s t : State} (h : step s = .next t) (hok : t.status = .ok) (fuel : Nat) :
    runFor (fuel + 1) s = runFor fuel t := by
  simp only [runFor, h, hok, if_true]

theorem runFor_of_not_ok {s t : State} (h : step s = .next t) (hstop : t.status ≠ .ok) (fuel : Nat) :
    runFor (fuel + 1) s = .next t := by
  simp only [runFor, h, hstop, if_false]

theorem runEndsWithin_of_not_ok {s t : State} (h : step s = .next t) (hstop : t.status ≠ .ok) (fuel : Nat) :
    RunEndsWithin (fuel + 1) s :=
  ⟨1, t, Nat.one_pos, Nat.le_add_left 1 fuel, runFor_of_not_ok h hstop fuel, hstop, coreRun_succ (M := core) h 0,
    fun _ hk hlt => absurd hlt (Nat.not_lt_of_le hk)⟩

theorem runEndsWithin_of_ok {s t : State} {fuel : Nat} (h : step s = .next t) (hok : t.status = .ok)
    (hrest : RunEndsWithin fuel t) : RunEndsWithin (fuel + 1) s := by
  obtain ⟨n, u, -, hle, hrun, hstop, hcore, hbefore⟩ := hrest
  refine ⟨n + 1, u, n.succ_pos, Nat.succ_le_succ hle, (runFor_of_ok h hok fuel).trans hrun, hstop,
    (coreRun_succ (M := core) h n).trans hcore, fun k hpos hlt => ?_⟩
  obtain ⟨j, rfl⟩ := Nat.exists_eq_succ_of_ne_zero hpos.ne'
  rcases Nat.eq_zero_or_pos j with rfl | hj
  · exact ⟨t, coreRun_succ (M := core) h 0, hok⟩
  · obtain ⟨v, hv, hvok⟩ := hbefore j hj (Nat.lt_of_succ_lt_succ hlt)
    exact ⟨v, (coreRun_succ (M := core) h j).trans hv, hvok⟩

/-- Each step that ends OK takes gas, so one more step than there is gas reaches another status (R111, R115). -/
theorem runEndsWithin_of_gas_le (g : Nat) : ∀ s : State, s.gas.toNat ≤ g → RunEndsWithin (g + 1) s := by
  induction g with
  | zero =>
    intro s hg
    obtain ⟨t, h⟩ := step_completes s
    refine runEndsWithin_of_not_ok h (fun hok => ?_) 0
    exact absurd (step_gas_lt h hok) (by omega)
  | succ g ih =>
    intro s hg
    obtain ⟨t, h⟩ := step_completes s
    by_cases hok : t.status = .ok
    · have hlt := step_gas_lt h hok
      exact runEndsWithin_of_ok h hok (ih t (by omega))
    · exact runEndsWithin_of_not_ok h hok (g + 1)

end Sys2Proof.Machine
end

section
/-! PROOFS. The settled statements of 40_dispatch.md. -/

namespace Sys2Proof.Proofs

open Sys2Proof.Machine

/-- Settles O11: the two filters of the definition, with the mask and code read as they stand inside the code. -/
theorem basicBlockStarts : Obligations.BasicBlockStarts := by
  rintro p ⟨hlen, -⟩ k
  rw [mem_basicBlocks, mem_blockEnds_iff hlen, ← maskBit_inside_iff hlen k, and_self_left]

/-- Settles O44: the empty record, a target, and each kind of exception have one equation of commit each. -/
theorem commitTable : Obligations.CommitTable := by
  refine ⟨fun i s t => exec_sameDriver, ?_⟩
  intro s l next
  have hnext : s.nextPc l = next := nextPc_eq s l
  refine ⟨fun h => ?_, fun t h => ?_, fun h => ?_, fun h => ?_, fun a h => ?_, fun n h => ?_⟩
  · rw [commit_of_empty l h, hnext]
    exact commitsTo_update s next .ok none s.gas
  · rw [commit_of_target l h]
    exact commitsTo_update s t .ok none s.gas
  · rw [commit_of_kind l (congrArg OpResult.kind h)]
    exact commitsTo_update s s.pc .halt none s.gas
  · rw [commit_of_kind l (congrArg OpResult.kind h)]
    exact commitsTo_update s s.pc .panic none s.gas
  · rw [commit_of_kind l (congrArg OpResult.kind h), ← gasSub_trap]
    exact commitsTo_update s s.pc .panic (some a) _
  · rw [commit_of_kind l (congrArg OpResult.kind h), State.takeExit, hnext]
    exact commitsTo_update s next .host (some n) s.gas

/-- Settles O45: an underflow of the gas check ends the step before the instruction; otherwise commit ends it. -/
theorem outOfGasStopsBeforeAnyEffect : Obligations.OutOfGasStopsBeforeAnyEffect := by
  intro s hs
  refine ⟨fun hzero => ?_, fun hgas => ?_⟩
  · exact ⟨_, step_of_no_gas hs hzero, rfl, rfl, by simp [hzero], rfl, fun _ => rfl, ⟨rfl, fun _ => rfl⟩, rfl, rfl⟩
  · obtain ⟨u, hu⟩ := step_of_gas hs hgas
    exact ⟨_, hu, commit_status_ne_oog _ _⟩

/-- Settles O46: the three statuses are the final ones, in which a step does nothing. -/
theorem finalStatusesAbsorb : Obligations.FinalStatusesAbsorb := by
  intro s h
  refine step_of_isFinal ?_
  rcases h with h | h | h <;> rw [h] <;> rfl

/-- Settles O47: both steps start from the same resumed state; setNextPC keeps STATUS HOST. -/
theorem hostPauseResumes : Obligations.HostPauseResumes := by
  intro s h
  refine ⟨step_of_host h, fun t => ?_⟩
  have hpc : BitVec.ofNat 32 (t % 2 ^ 32) = BitVec.ofNat 32 t := BitVec.eq_of_toNat_eq (by simp)
  rw [hpc]
  exact step_of_host (s := s.setNextPC t) h

/-- Settles O50: by induction on the gas, which every step that ends OK lowers. -/
theorem runEndsWithinItsGas : Obligations.RunEndsWithinItsGas :=
  fun s => runEndsWithin_of_gas_le s.gas.toNat s le_rfl

/-- Settles O55: every operation commutes with a change of the part it does not read, and does not write it. -/
theorem operationsReadAndWriteNoDriverState : Obligations.OperationsReadAndWriteNoDriverState := by
  intro i s pc gas status exitParam started code mask
  obtain ⟨t, ht, hchanged⟩ := exec_withDriver i s ⟨pc, gas, status, exitParam, started, code, mask⟩
  obtain ⟨hprogram, -⟩ := exec_sameSetup ht
  exact ⟨t, ht, exec_sameDriver ht, hprogram, hchanged⟩

end Sys2Proof.Proofs
end

section
/-! PROOFS. The arithmetic values as numbers: what each value function of 41_arithmetic.md makes of the signed or the
unsigned numbers of its operands, and the instruction that writes one register. -/

namespace Sys2Proof

/-! ### Reading and writing 32 bits -/

theorem toNat_u32 (v : Word) : (u32 v).toNat = v.toNat % 2 ^ 32 := BitVec.toNat_setWidth 32 v

theorem toInt_u32 (v : Word) : (u32 v).toInt = Int.bmod v.toInt (2 ^ 32) := s32_eq_bmod v

/-- A 32-bit result as `X4` sign-extends it, by its unsigned number (R22). -/
theorem toInt_x4_eq_bmod (u : BitVec 32) : (x4 u).toInt = Int.bmod u.toNat (2 ^ 32) :=
  (toInt_x4 u).trans u.toInt_eq_toNat_bmod

theorem eq_zero_iff_toNat {w : Nat} (x : BitVec w) : x = 0#w ↔ x.toNat = 0 := by
  rw [← BitVec.toNat_inj, BitVec.toNat_ofNat, Nat.zero_mod]

theorem u32_eq_zero_iff (v : Word) : u32 v = 0#32 ↔ v.toNat % 2 ^ 32 = 0 := by
  rw [eq_zero_iff_toNat, toNat_u32]

/-! ### Numbers that `to64` keeps -/

/-- `to64` keeps every number that 64 bits hold as two's complement (R22). -/
theorem toInt_to64_of_range {i : Int} (hle : -2 ^ 63 ≤ i) (hlt : i < 2 ^ 63) : (to64 i).toInt = i := by
  rw [toInt_to64]
  exact Int.bmod_eq_of_le_mul_two (by omega) (by omega)

/-- In particular the signed number of a word of at most 64 bits. -/
theorem toInt_to64_toInt {w : Nat} (hw : w ≤ 64) (u : BitVec w) : (to64 u.toInt).toInt = u.toInt :=
  BitVec.toInt_signExtend_of_le hw

/-- The truncated quotient of two signed words fits their width, but for the overflow (R136, R143). -/
theorem toInt_sdiv_of_not_overflow {w : Nat} (hw : 0 < w) {x y : BitVec w}
    (h : ¬ (x.toInt = -2 ^ (w - 1) ∧ y.toInt = -1)) : (x.sdiv y).toInt = x.toInt.tdiv y.toInt := by
  apply BitVec.toInt_sdiv_of_ne_or_ne
  rw [← not_and_or]
  rintro ⟨rfl, rfl⟩
  have hneg : (-1#w).toInt = -1 := by rw [BitVec.neg_one_eq_allOnes, BitVec.toInt_allOnes, if_pos hw]
  exact h ⟨BitVec.toInt_intMin_of_pos hw, hneg⟩

theorem toInt_to64_tdiv {w : Nat} (hw : 0 < w) (hle : w ≤ 64) {x y : BitVec w}
    (h : ¬ (x.toInt = -2 ^ (w - 1) ∧ y.toInt = -1)) :
    (to64 (x.toInt.tdiv y.toInt)).toInt = x.toInt.tdiv y.toInt := by
  rw [← toInt_sdiv_of_not_overflow hw h, toInt_to64_toInt hle]

/-- The remainder of a truncated division always fits: it is the signed remainder of the words (R138, R145). -/
theorem toInt_to64_sub_mul_tdiv {w : Nat} (hle : w ≤ 64) (x y : BitVec w) :
    (to64 (x.toInt - y.toInt * x.toInt.tdiv y.toInt)).toInt = x.toInt - y.toInt * x.toInt.tdiv y.toInt := by
  rw [← Int.tmod_def, ← BitVec.toInt_srem, toInt_to64_toInt hle]

/-- A signed word times a number of at most 64 bits and a sign is within 2^127, so its upper half fits (R146, R148). -/
theorem toInt_to64_upper_product (a : Word) {j : Int} (hj : |j| < 2 ^ 64) :
    (to64 (a.toInt * j / 2 ^ 64)).toInt = a.toInt * j / 2 ^ 64 := by
  have ha : |a.toInt| ≤ 2 ^ 63 := abs_le.2 ⟨a.le_toInt, a.toInt_lt.le⟩
  have hprod : |a.toInt * j| ≤ 2 ^ 63 * (2 ^ 64 - 1) := by
    rw [abs_mul]
    exact mul_le_mul ha (Int.le_sub_one_of_lt hj) (abs_nonneg j) (by decide)
  obtain ⟨hlo, hhi⟩ := abs_le.1 hprod
  exact toInt_to64_of_range (by omega) (by omega)

end Sys2Proof

namespace Sys2Proof.Machine

/-! ### The instruction that writes one register -/

/-- An operation that is one register write completes with that value, and nothing else changes (R117). -/
theorem writes_of_setReg {i : Instr} {s : State} {r : Reg} {v : Word} {P : Word → Prop}
    (h : exec i s = .next (s.setReg r v)) (hv : P v) : Writes i s r P :=
  ⟨_, h, by rwa [reg_setReg_self], setReg_frame s r v⟩

/-! ### Additions, subtractions and multiplications -/

theorem toInt_add32 (a b : Word) : (add32 a b).toInt = Int.bmod (a.toInt + b.toInt) (2 ^ 32) := by
  rw [add32, toInt_x4, BitVec.toInt_add, toInt_u32, toInt_u32, Int.bmod_add_bmod, Int.add_bmod_bmod]

theorem toInt_sub32 (a b : Word) : (sub32 a b).toInt = Int.bmod (a.toInt - b.toInt) (2 ^ 32) := by
  rw [sub32, toInt_x4, BitVec.toInt_sub, toInt_u32, toInt_u32, Int.bmod_sub_bmod, Int.sub_bmod_bmod]

theorem toInt_mul32 (a b : Word) : (mul32 a b).toInt = Int.bmod (a.toInt * b.toInt) (2 ^ 32) := by
  rw [mul32, toInt_x4, BitVec.toInt_mul, toInt_u32, toInt_u32, Int.bmod_mul_bmod, Int.mul_bmod_bmod]

theorem toNat_add64 (a b : Word) : (add64 a b).toNat = (a.toNat + b.toNat) % 2 ^ 64 := BitVec.toNat_add a b

theorem toNat_mul64 (a b : Word) : (mul64 a b).toNat = (a.toNat * b.toNat) % 2 ^ 64 := BitVec.toNat_mul a b

theorem toNat_sub64 (a b : Word) : ((sub64 a b).toNat : Int) = ((a.toNat : Int) - b.toNat) % 2 ^ 64 := by
  rw [sub64, BitVec.toNat_sub]
  omega

/-! ### Divisions and remainders -/

theorem divU32_result (a b : Word) :
    if b.toNat % 2 ^ 32 = 0 then (divU32 a b).toNat = 2 ^ 64 - 1
    else (divU32 a b).toInt = Int.bmod (a.toNat % 2 ^ 32 / (b.toNat % 2 ^ 32) : Nat) (2 ^ 32) := by
  simp only [divU32, u32_eq_zero_iff]
  split_ifs
  · rfl
  · rw [toInt_x4_eq_bmod, BitVec.toNat_udiv, toNat_u32, toNat_u32]

theorem remU32_result (a b : Word) :
    if b.toNat % 2 ^ 32 = 0 then (remU32 a b).toInt = Int.bmod (a.toNat % 2 ^ 32 : Nat) (2 ^ 32)
    else (remU32 a b).toInt = Int.bmod (a.toNat % 2 ^ 32 % (b.toNat % 2 ^ 32) : Nat) (2 ^ 32) := by
  simp only [remU32, u32_eq_zero_iff]
  split_ifs
  · rw [toInt_x4_eq_bmod, toNat_u32]
  · rw [toInt_x4_eq_bmod, BitVec.toNat_umod, toNat_u32, toNat_u32]

theorem divS32_result (a b : Word) :
    if s32 b = 0 then (divS32 a b).toNat = 2 ^ 64 - 1
    else if s32 a = -2 ^ 31 ∧ s32 b = -1 then (divS32 a b).toInt = s32 a
    else (divS32 a b).toInt = (s32 a).tdiv (s32 b) := by
  unfold divS32
  split_ifs with hzero hover
  · rfl
  · exact toInt_to64_toInt (by decide) (u32 a)
  · exact toInt_to64_tdiv (by decide) (by decide) hover

theorem remS32_result (a b : Word) :
    if s32 b = 0 then (remS32 a b).toInt = s32 a
    else if s32 a = -2 ^ 31 ∧ s32 b = -1 then (remS32 a b).toInt = 0
    else (remS32 a b).toInt = s32 a - s32 b * (s32 a).tdiv (s32 b) := by
  unfold remS32
  split_ifs
  · exact toInt_to64_toInt (by decide) (u32 a)
  · rfl
  · exact toInt_to64_sub_mul_tdiv (by decide) (u32 a) (u32 b)

theorem divU64_result (a b : Word) :
    if b.toNat = 0 then (divU64 a b).toNat = 2 ^ 64 - 1 else (divU64 a b).toNat = a.toNat / b.toNat := by
  simp only [divU64, eq_zero_iff_toNat]
  split_ifs
  · rfl
  · exact BitVec.toNat_udiv

theorem remU64_result (a b : Word) :
    if b.toNat = 0 then remU64 a b = a else (remU64 a b).toNat = a.toNat % b.toNat := by
  simp only [remU64, eq_zero_iff_toNat]
  split_ifs
  · rfl
  · exact BitVec.toNat_umod

theorem divS64_result (a b : Word) :
    if s64 b = 0 then (divS64 a b).toNat = 2 ^ 64 - 1
    else if s64 a = -2 ^ 63 ∧ s64 b = -1 then (divS64 a b).toInt = s64 a
    else (divS64 a b).toInt = (s64 a).tdiv (s64 b) := by
  unfold divS64
  split_ifs with hzero hover
  · rfl
  · rfl
  · exact toInt_to64_tdiv (by decide) le_rfl hover

theorem remS64_result (a b : Word) :
    if s64 b = 0 then (remS64 a b).toInt = s64 a
    else if s64 a = -2 ^ 63 ∧ s64 b = -1 then (remS64 a b).toInt = 0
    else (remS64 a b).toInt = s64 a - s64 b * (s64 a).tdiv (s64 b) := by
  unfold remS64
  split_ifs
  · rfl
  · rfl
  · exact toInt_to64_sub_mul_tdiv le_rfl a b

/-! ### Upper halves of products -/

theorem toInt_mulUpperSS (a b : Word) : (mulUpperSS a b).toInt = a.toInt * b.toInt / 2 ^ 64 := by
  have hb : |b.toInt| ≤ 2 ^ 63 := abs_le.2 ⟨b.le_toInt, b.toInt_lt.le⟩
  exact toInt_to64_upper_product a (hb.trans_lt (by decide))

theorem toInt_mulUpperSU (a b : Word) : (mulUpperSU a b).toInt = a.toInt * (b.toNat : Int) / 2 ^ 64 := by
  have hb : |(b.toNat : Int)| = b.toNat := Nat.abs_cast _
  have hlt := b.isLt
  exact toInt_to64_upper_product a (by omega)

theorem toNat_mulUpperUU (a b : Word) : (mulUpperUU a b).toNat = a.toNat * b.toNat / 2 ^ 64 := by
  have hprod : a.toNat * b.toNat < 2 ^ 64 * 2 ^ 64 := Nat.mul_lt_mul'' a.isLt b.isLt
  rw [mulUpperUU, BitVec.toNat_ofNat, Nat.mod_eq_of_lt (Nat.div_lt_of_lt_mul hprod)]

/-! ### Minimum and maximum: the number of one of the operands -/

theorem toInt_maxS (a b : Word) : (maxS a b).toInt = max a.toInt b.toInt := by
  simp only [maxS, s64]
  rcases max_choice a.toInt b.toInt with h | h <;> rw [h, toInt_to64_toInt le_rfl]

theorem toInt_minS (a b : Word) : (minS a b).toInt = min a.toInt b.toInt := by
  simp only [minS, s64]
  rcases min_choice a.toInt b.toInt with h | h <;> rw [h, toInt_to64_toInt le_rfl]

theorem toNat_maxU (a b : Word) : (maxU a b).toNat = max a.toNat b.toNat := by
  rw [maxU, BitVec.toNat_ofNat, Nat.mod_eq_of_lt (max_lt a.isLt b.isLt)]

theorem toNat_minU (a b : Word) : (minU a b).toNat = min a.toNat b.toNat := by
  rw [minU, BitVec.toNat_ofNat, Nat.mod_eq_of_lt (min_lt_of_left_lt a.isLt)]

end Sys2Proof.Machine
end

section
/-! PROOFS. The settled statements of 41_arithmetic.md. -/

namespace Sys2Proof.Proofs

open Sys2Proof.Machine

/-- Settles O6: each of the twelve programs is evaluated. -/
theorem specWordsDecode : Obligations.SpecWordsDecode :=
  ⟨by decide, by decide, by decide, by decide, by decide, by decide, by decide, by decide, by decide, by decide,
    by decide, by decide⟩

/-- Settles O12: reduction to 32 bits around 0 commutes with the three operations. -/
theorem addSubMul32Results : Obligations.AddSubMul32Results := by
  refine ⟨⟨rfl, rfl, rfl, rfl, rfl, rfl⟩, fun s rD rA rB immX => ⟨?_, ?_, ?_, ?_, ?_, ?_⟩⟩
  · exact writes_of_setReg rfl (toInt_add32 _ _)
  · exact writes_of_setReg rfl (toInt_mul32 _ _)
  · exact writes_of_setReg rfl (toInt_sub32 _ _)
  · exact writes_of_setReg rfl (toInt_add32 _ _)
  · exact writes_of_setReg rfl (toInt_sub32 _ _)
  · exact writes_of_setReg rfl (toInt_mul32 _ _)

/-- Settles O13: the operations of the rules are those of words of 64 bits. -/
theorem addSubMul64Results : Obligations.AddSubMul64Results := by
  refine ⟨⟨rfl, rfl, rfl, rfl, rfl, rfl⟩, fun s rD rA rB immX => ⟨?_, ?_, ?_, ?_, ?_, ?_⟩⟩
  · exact writes_of_setReg rfl (toNat_add64 _ _)
  · exact writes_of_setReg rfl (toNat_mul64 _ _)
  · exact writes_of_setReg rfl (toNat_sub64 _ _)
  · exact writes_of_setReg rfl (toNat_add64 _ _)
  · exact writes_of_setReg rfl (toNat_sub64 _ _)
  · exact writes_of_setReg rfl (toNat_mul64 _ _)

/-- Settles O14: outside the overflow the quotient fits 32 signed bits, and the remainder always does; X4 and to64 keep
both. -/
theorem divRem32Results : Obligations.DivRem32Results := by
  refine ⟨⟨rfl, rfl, rfl, rfl⟩, fun s rD rA rB => ?_⟩
  simp only [← s32_eq_bmod]
  refine ⟨?_, ?_, ?_, ?_⟩
  · exact writes_of_setReg rfl (divU32_result _ _)
  · exact writes_of_setReg rfl (divS32_result _ _)
  · exact writes_of_setReg rfl (remU32_result _ _)
  · exact writes_of_setReg rfl (remS32_result _ _)

/-- Settles O15: outside the overflow the quotient is that of two words of 64 signed bits; the remainder always is. -/
theorem divRem64Results : Obligations.DivRem64Results := by
  refine ⟨⟨rfl, rfl, rfl, rfl⟩, fun s rD rA rB => ⟨?_, ?_, ?_, ?_⟩⟩
  · exact writes_of_setReg rfl (divU64_result _ _)
  · exact writes_of_setReg rfl (divS64_result _ _)
  · exact writes_of_setReg rfl (remU64_result _ _)
  · exact writes_of_setReg rfl (remS64_result _ _)

/-- Settles O16: the products are too small for their upper halves to leave 64 bits. -/
theorem upperProductResults : Obligations.UpperProductResults := by
  refine ⟨⟨rfl, rfl, rfl⟩, fun s rD rA rB => ⟨?_, ?_, ?_⟩⟩
  · exact writes_of_setReg rfl (toInt_mulUpperSS _ _)
  · exact writes_of_setReg rfl (toNat_mulUpperUU _ _)
  · exact writes_of_setReg rfl (toInt_mulUpperSU _ _)

/-- Settles O17: the larger or smaller number is that of one of the operands. -/
theorem minMaxResults : Obligations.MinMaxResults := by
  refine ⟨⟨rfl, rfl, rfl, rfl⟩, fun s rD rA rB => ⟨?_, ?_, ?_, ?_⟩⟩
  · exact writes_of_setReg rfl (toInt_maxS _ _)
  · exact writes_of_setReg rfl (toNat_maxU _ _)
  · exact writes_of_setReg rfl (toInt_minS _ _)
  · exact writes_of_setReg rfl (toNat_minU _ _)

end Sys2Proof.Proofs
end

section
/-! PROOFS. The bitwise values: logic and rotates bit by bit, shifts as products and quotients, the counts as the first
place of a 1 bit, extension and byte reversal as numbers (42_bitwise_shift.md). -/

namespace Sys2Proof

/-! ### The bits of a 32-bit result -/

theorem getLsbD_u32 (v : Word) {k : Nat} (h : k < 32) : (u32 v).getLsbD k = v.getLsbD k := by
  rw [u32, BitVec.getLsbD_setWidth, decide_eq_true h, Bool.true_and]

theorem getLsbD_x4 (u : BitVec 32) {k : Nat} (h : k < 32) : (x4 u).getLsbD k = u.getLsbD k := by
  rw [x4, BitVec.getLsbD_signExtend, if_pos h, decide_eq_true (h.trans (by decide)), Bool.true_and]

/-- `X4` fills the upper half with copies of bit 31 (R22). -/
theorem getLsbD_x4_upper (u : BitVec 32) {k : Nat} (h : 32 ≤ k) (hk : k < 64) :
    (x4 u).getLsbD k = (x4 u).getLsbD 31 := by
  rw [getLsbD_x4 u (k := 31) (by decide), x4, BitVec.getLsbD_signExtend, if_neg (Nat.not_lt_of_le h), decide_eq_true hk,
    Bool.true_and, BitVec.msb_eq_getLsbD_last]

/-! ### Extensions -/

/-- Sign-extension of the low n bits keeps the signed number, modulo 2^n around 0 (R22). -/
theorem toInt_sextN {n : Nat} (h : n ≤ 64) (v : Word) : (sextN n v).toInt = Int.bmod v.toInt (2 ^ n) := by
  rw [sextN, BitVec.toInt_signExtend_of_le h, ← BitVec.signExtend_eq_setWidth_of_le _ h,
    BitVec.toInt_signExtend_eq_toInt_bmod_of_le _ h]

theorem toNat_zextN {n : Nat} (h : n ≤ 64) (v : Word) : (zextN n v).toNat = v.toNat % 2 ^ n := by
  rw [zextN, BitVec.toNat_setWidth_of_le h, BitVec.toNat_setWidth]

/-! ### Byte strings -/

/-- Base 256 digit k of a little-endian value is byte k (R21). -/
theorem leValue_div_mod (bs : List Byte) (k : Nat) : leValue bs / 256 ^ k % 256 = (bs.getD k 0).toNat := by
  induction bs generalizing k with
  | nil => simp [leValue]
  | cons b bs ih =>
    have hb : b.toNat < 256 := b.isLt
    cases k with
    | zero =>
      rw [leValue, pow_zero, Nat.div_one, List.getD_cons_zero]
      omega
    | succ k =>
      have hrest : leValue (b :: bs) / 256 = leValue bs := by
        rw [leValue]
        omega
      rw [pow_succ', ← Nat.div_div_eq_div_mul, hrest, ih, List.getD_cons_succ]

/-- The digits of a reversed byte string, in the other order (R200). -/
theorem leBytes_reverse_getD {n k : Nat} (v : Nat) (h : k < n) :
    ((leBytes n v).reverse.getD k 0).toNat = v / 256 ^ (n - 1 - k) % 256 := by
  have hmirror : n - 1 - k < n := by omega
  rw [List.getD_eq_getElem?_getD, List.getElem?_reverse (by simpa using h), leBytes_length, leBytes_getElem? v hmirror,
    Option.getD_some, BitVec.toNat_ofNat]

/-! ### Rotates of a word of any width -/

theorem getLsbD_rotateRight_mod {w k : Nat} (x : BitVec w) (r : Nat) (h : k < w) :
    (x.rotateRight (r % w)).getLsbD k = x.getLsbD ((k + r) % w) := by
  have hr : r % w < w := Nat.mod_lt r (Nat.zero_lt_of_lt h)
  rw [BitVec.rotateRight_mod_eq_rotateRight, BitVec.getLsbD_rotateRight, Nat.add_mod_eq_ite, Nat.mod_eq_of_lt h]
  by_cases hlow : k < w - r % w
  · rw [decide_eq_true hlow, cond_true, if_neg (by omega), Nat.add_comm]
  · rw [decide_eq_false hlow, decide_eq_true h, cond_false, Bool.true_and, if_pos (by omega)]
    congr 1
    omega

/-- A rotate to the left puts bit k at place k + r, modulo the width (R187, R188). -/
theorem getLsbD_rotateLeft_mod {w k : Nat} (x : BitVec w) (r : Nat) (h : k < w) :
    (x.rotateLeft (r % w)).getLsbD ((k + r) % w) = x.getLsbD k := by
  have hr : r % w < w := Nat.mod_lt r (Nat.zero_lt_of_lt h)
  rw [BitVec.rotateLeft_mod_eq_rotateLeft, BitVec.getLsbD_rotateLeft, Nat.add_mod_eq_ite, Nat.mod_eq_of_lt h]
  by_cases hwrap : w ≤ k + r % w
  · rw [if_pos hwrap, decide_eq_true (by omega), cond_true]
    congr 1
    omega
  · rw [if_neg hwrap, decide_eq_false (by omega), decide_eq_true (by omega), cond_false, Bool.true_and,
      Nat.add_sub_cancel]

end Sys2Proof

namespace Sys2Proof.Machine

/-! ### Logic -/

theorem getLsbD_andInv (a b : Word) {k : Nat} (h : k < 64) :
    (andInv a b).getLsbD k = (a.getLsbD k && !b.getLsbD k) := by
  simp [andInv, h]

theorem getLsbD_orInv (a b : Word) {k : Nat} (h : k < 64) :
    (orInv a b).getLsbD k = (a.getLsbD k || !b.getLsbD k) := by
  simp [orInv, h]

theorem getLsbD_xnor (a b : Word) {k : Nat} (h : k < 64) :
    (xnor a b).getLsbD k = !(a.getLsbD k).xor (b.getLsbD k) := by
  simp [xnor, h]

/-! ### Shifts -/

theorem toInt_shloL32 (v c : Word) :
    (shloL32 v c).toInt = Int.bmod (v.toNat * 2 ^ (c.toNat % 32) : Nat) (2 ^ 32) := by
  rw [shloL32, toInt_x4_eq_bmod, BitVec.toNat_shiftLeft, toNat_u32, Nat.shiftLeft_eq, Nat.mod_mul_mod, Int.natCast_mod,
    Int.emod_bmod]

theorem toInt_shloR32 (v c : Word) :
    (shloR32 v c).toInt = Int.bmod (v.toNat % 2 ^ 32 / 2 ^ (c.toNat % 32) : Nat) (2 ^ 32) := by
  rw [shloR32, toInt_x4_eq_bmod, BitVec.toNat_ushiftRight, toNat_u32, Nat.shiftRight_eq_div_pow]

theorem toInt_sharR32 (v c : Word) :
    (sharR32 v c).toInt = Int.bmod v.toInt (2 ^ 32) / 2 ^ (c.toNat % 32) := by
  rw [sharR32, toInt_x4, BitVec.toInt_sshiftRight, toInt_u32, Int.shiftRight_eq_div_pow, Nat.cast_pow, Nat.cast_ofNat]

theorem toNat_shloL64 (v c : Word) : (shloL64 v c).toNat = v.toNat * 2 ^ (c.toNat % 64) % 2 ^ 64 := by
  rw [shloL64, BitVec.toNat_shiftLeft, Nat.shiftLeft_eq]

theorem toNat_shloR64 (v c : Word) : (shloR64 v c).toNat = v.toNat / 2 ^ (c.toNat % 64) := by
  rw [shloR64, BitVec.toNat_ushiftRight, Nat.shiftRight_eq_div_pow]

theorem toInt_sharR64 (v c : Word) : (sharR64 v c).toInt = v.toInt / 2 ^ (c.toNat % 64) := by
  rw [sharR64, BitVec.toInt_sshiftRight, Int.shiftRight_eq_div_pow, Nat.cast_pow, Nat.cast_ofNat]

/-! ### Rotates -/

theorem getLsbD_rotR64 (v c : Word) {k : Nat} (h : k < 64) :
    (rotR64 v c).getLsbD k = v.getLsbD ((k + c.toNat) % 64) := getLsbD_rotateRight_mod v c.toNat h

theorem getLsbD_rotL64 (v c : Word) {k : Nat} (h : k < 64) :
    (rotL64 v c).getLsbD ((k + c.toNat) % 64) = v.getLsbD k := getLsbD_rotateLeft_mod v c.toNat h

theorem getLsbD_rotR32 (v c : Word) {k : Nat} (h : k < 32) :
    (rotR32 v c).getLsbD k = v.getLsbD ((k + c.toNat) % 32) := by
  rw [rotR32, getLsbD_x4 _ h, getLsbD_rotateRight_mod _ _ h, getLsbD_u32 v (Nat.mod_lt _ (by decide))]

theorem getLsbD_rotL32 (v c : Word) {k : Nat} (h : k < 32) :
    (rotL32 v c).getLsbD ((k + c.toNat) % 32) = v.getLsbD k := by
  rw [rotL32, getLsbD_x4 _ (Nat.mod_lt _ (by decide)), getLsbD_rotateLeft_mod _ _ h, getLsbD_u32 v h]

/-! ### Counts -/

/-- The count over the list of places is the size of the set of the 1 bits' places (R191, R192). -/
theorem toNat_popcount {w : Nat} (hw : w < 2 ^ 64) (v : Word) :
    (popcount w v).toNat = ((Finset.range w).filter (fun k => v.getLsbD k = true)).card := by
  have hle : (List.range w).countP (fun k => v.getLsbD k) ≤ w := by
    simpa using List.countP_le_length (l := List.range w)
  rw [popcount, BitVec.toNat_ofNat, Nat.mod_eq_of_lt (hle.trans_lt hw), ← Nat.count_eq_card_filter_range, Nat.count]
  simp only [Bool.decide_eq_true]

/-- A scan over the places of l passes 0 bits up to the first 1 bit (R193 to R196). -/
theorem toNat_zerosPassed (v : Word) {l : List Nat} (h : l.length < 2 ^ 64) :
    (BitVec.ofNat 64 (l.takeWhile (fun k => !v.getLsbD k)).length).toNat = l.findIdx (fun k => v.getLsbD k) := by
  have hle : l.findIdx (fun k => v.getLsbD k) ≤ l.length := List.findIdx_le_length
  simp only [List.takeWhile_eq_take_findIdx_not, Bool.not_not]
  rw [List.length_take, min_eq_left hle, BitVec.toNat_ofNat, Nat.mod_eq_of_lt (hle.trans_lt h)]

theorem clz_result {w : Nat} (hw : w < 2 ^ 64) (v : Word) :
    (clz w v).toNat ≤ w ∧ (∀ j, j < (clz w v).toNat → v.getLsbD (w - 1 - j) = false) ∧
      ((clz w v).toNat < w → v.getLsbD (w - 1 - (clz w v).toNat) = true) := by
  rw [clz, toNat_zerosPassed v (by simpa using hw)]
  refine ⟨by simpa using List.findIdx_le_length (xs := (List.range w).reverse), fun j hj => ?_, fun hlt => ?_⟩
  · simpa using List.not_of_lt_findIdx hj
  · simpa using List.findIdx_getElem (w := hlt.trans_eq (by simp))

theorem ctz_result {w : Nat} (hw : w < 2 ^ 64) (v : Word) :
    (ctz w v).toNat ≤ w ∧ (∀ j, j < (ctz w v).toNat → v.getLsbD j = false) ∧
      ((ctz w v).toNat < w → v.getLsbD (ctz w v).toNat = true) := by
  rw [ctz, toNat_zerosPassed v (by simpa using hw)]
  refine ⟨by simpa using List.findIdx_le_length (xs := List.range w), fun j hj => ?_, fun hlt => ?_⟩
  · simpa using List.not_of_lt_findIdx hj
  · simpa using List.findIdx_getElem (w := hlt.trans_eq (by simp))

/-! ### Byte order -/

/-- Reversing the byte string of a word reverses its base 256 digits (R200). -/
theorem bswap64_byte (v : Word) {k : Nat} (h : k < 8) :
    (bswap64 v).toNat / 256 ^ k % 256 = v.toNat / 256 ^ (7 - k) % 256 := by
  have hlt : leValue (leBytes 8 v.toNat).reverse < 2 ^ 64 := by
    simpa using leValue_lt (leBytes 8 v.toNat).reverse
  rw [bswap64, BitVec.toNat_ofNat, Nat.mod_eq_of_lt hlt, leValue_div_mod, leBytes_reverse_getD v.toNat h]

end Sys2Proof.Machine
end

section
/-! PROOFS. The settled statements of 42_bitwise_shift.md. -/

namespace Sys2Proof.Proofs

open Sys2Proof.Machine

/-- Settles O18: each operation of words works on each of their 64 bits alone. -/
theorem bitwiseLogicResults : Obligations.BitwiseLogicResults := by
  refine ⟨⟨rfl, rfl, rfl, rfl, rfl, rfl, rfl, rfl, rfl⟩, fun s rD rA rB immX => ⟨?_, ?_, ?_, ?_, ?_, ?_, ?_, ?_, ?_⟩⟩
  · exact writes_of_setReg rfl (fun _ _ => BitVec.getLsbD_and)
  · exact writes_of_setReg rfl (fun _ _ => BitVec.getLsbD_xor)
  · exact writes_of_setReg rfl (fun _ _ => BitVec.getLsbD_or)
  · exact writes_of_setReg rfl (fun _ _ => BitVec.getLsbD_and)
  · exact writes_of_setReg rfl (fun _ _ => BitVec.getLsbD_xor)
  · exact writes_of_setReg rfl (fun _ _ => BitVec.getLsbD_or)
  · exact writes_of_setReg rfl (fun _ => getLsbD_andInv _ _)
  · exact writes_of_setReg rfl (fun _ => getLsbD_orInv _ _)
  · exact writes_of_setReg rfl (fun _ => getLsbD_xnor _ _)

/-- Settles O19: a 32-bit shift is a product modulo 2^32 or a floor quotient, and X4 keeps its signed number. -/
theorem shift32Results : Obligations.Shift32Results := by
  refine ⟨⟨rfl, rfl, rfl, rfl, rfl, rfl, rfl, rfl, rfl⟩, fun s rD rA rB immX => ⟨?_, ?_, ?_, ?_, ?_, ?_, ?_, ?_, ?_⟩⟩
  · exact writes_of_setReg rfl (toInt_shloL32 _ _)
  · exact writes_of_setReg rfl (toInt_shloR32 _ _)
  · exact writes_of_setReg rfl (toInt_sharR32 _ _)
  · exact writes_of_setReg rfl (toInt_shloL32 _ _)
  · exact writes_of_setReg rfl (toInt_shloR32 _ _)
  · exact writes_of_setReg rfl (toInt_sharR32 _ _)
  · exact writes_of_setReg rfl (toInt_shloL32 _ _)
  · exact writes_of_setReg rfl (toInt_shloR32 _ _)
  · exact writes_of_setReg rfl (toInt_sharR32 _ _)

/-- Settles O20: the same products and quotients at 64 bits. -/
theorem shift64Results : Obligations.Shift64Results := by
  refine ⟨⟨rfl, rfl, rfl, rfl, rfl, rfl, rfl, rfl, rfl⟩, fun s rD rA rB immX => ⟨?_, ?_, ?_, ?_, ?_, ?_, ?_, ?_, ?_⟩⟩
  · exact writes_of_setReg rfl (toNat_shloL64 _ _)
  · exact writes_of_setReg rfl (toNat_shloR64 _ _)
  · exact writes_of_setReg rfl (toInt_sharR64 _ _)
  · exact writes_of_setReg rfl (toNat_shloL64 _ _)
  · exact writes_of_setReg rfl (toNat_shloR64 _ _)
  · exact writes_of_setReg rfl (toInt_sharR64 _ _)
  · exact writes_of_setReg rfl (toNat_shloL64 _ _)
  · exact writes_of_setReg rfl (toNat_shloR64 _ _)
  · exact writes_of_setReg rfl (toInt_sharR64 _ _)

/-- Settles O21: a rotate of a word of w bits adds the count to each place modulo w; X4 adds the upper half. -/
theorem rotateResults : Obligations.RotateResults := by
  refine ⟨⟨rfl, rfl, rfl, rfl, rfl, rfl, rfl, rfl⟩, fun s rD rA rB immX => ⟨?_, ?_, ?_, ?_, ?_, ?_, ?_, ?_⟩⟩
  · exact writes_of_setReg rfl (fun _ => getLsbD_rotR64 _ _)
  · exact writes_of_setReg rfl (fun _ => getLsbD_rotR64 _ _)
  · exact writes_of_setReg rfl ⟨fun _ => getLsbD_rotR32 _ _, fun _ => getLsbD_x4_upper _⟩
  · exact writes_of_setReg rfl ⟨fun _ => getLsbD_rotR32 _ _, fun _ => getLsbD_x4_upper _⟩
  · exact writes_of_setReg rfl (fun _ => getLsbD_rotL64 _ _)
  · exact writes_of_setReg rfl ⟨fun _ => getLsbD_rotL32 _ _, fun _ => getLsbD_x4_upper _⟩
  · exact writes_of_setReg rfl (fun _ => getLsbD_rotR64 _ _)
  · exact writes_of_setReg rfl ⟨fun _ => getLsbD_rotR32 _ _, fun _ => getLsbD_x4_upper _⟩

/-- Settles O22: a count of zeros is the index of the first 1 bit in the list of places that the definition scans. -/
theorem bitCountResults : Obligations.BitCountResults := by
  refine ⟨⟨rfl, rfl, rfl, rfl, rfl, rfl⟩, fun s rD rA => ⟨?_, ?_, ?_, ?_, ?_, ?_⟩⟩
  · exact writes_of_setReg rfl (toNat_popcount (by decide) _)
  · exact writes_of_setReg rfl (toNat_popcount (by decide) _)
  · exact writes_of_setReg rfl (clz_result (by decide) _)
  · exact writes_of_setReg rfl (clz_result (by decide) _)
  · exact writes_of_setReg rfl (ctz_result (by decide) _)
  · exact writes_of_setReg rfl (ctz_result (by decide) _)

/-- Settles O23: extensions are reductions modulo 2^8 and 2^16; the reversed byte string has the bytes in the other
order. -/
theorem extensionAndByteOrderResults : Obligations.ExtensionAndByteOrderResults := by
  refine ⟨⟨rfl, rfl, rfl, rfl⟩, fun s rD rA => ⟨?_, ?_, ?_, ?_⟩⟩
  · exact writes_of_setReg rfl (toInt_sextN (by decide) _)
  · exact writes_of_setReg rfl (toInt_sextN (by decide) _)
  · exact writes_of_setReg rfl (toNat_zextN (by decide) _)
  · exact writes_of_setReg rfl (fun _ => bswap64_byte _)

end Sys2Proof.Proofs
end

section
/-! PROOFS. The conditions as statements about words and numbers, the word that a set-on-compare writes, and what a
conditional move does in each case (43_compare_move.md). -/

namespace Sys2Proof.Machine

/-! ### Conditions -/

@[simp] theorem condEq_iff {a b : Word} : condEq a b = true ↔ a = b := beq_iff_eq

@[simp] theorem condNe_iff {a b : Word} : condNe a b = true ↔ a ≠ b := bne_iff_ne

@[simp] theorem condLtU_iff {a b : Word} : condLtU a b = true ↔ a.toNat < b.toNat := decide_eq_true_iff

@[simp] theorem condGtU_iff {a b : Word} : condGtU a b = true ↔ a.toNat > b.toNat := decide_eq_true_iff

@[simp] theorem condLtS_iff {a b : Word} : condLtS a b = true ↔ a.toInt < b.toInt := decide_eq_true_iff

@[simp] theorem condGtS_iff {a b : Word} : condGtS a b = true ↔ a.toInt > b.toInt := decide_eq_true_iff

/-! ### Set-on-compare -/

/-- The word of a condition is the number 1 where what the condition tests holds, and 0 where it does not (R201). -/
theorem toNat_boolWord {c : Bool} {p : Prop} [Decidable p] (h : c = true ↔ p) :
    (boolWord c).toNat = if p then 1 else 0 := by
  by_cases hp : p
  · rw [if_pos hp, boolWord, if_pos (h.2 hp)]
    rfl
  · rw [if_neg hp, boolWord, if_neg (mt h.1 hp)]
    rfl

/-! ### Conditional moves -/

/-- A conditional move whose condition holds is a register write. -/
theorem writes_of_condMove {i : Instr} {s : State} {c : Bool} {r : Reg} {v : Word} {P : Word → Prop}
    (h : exec i s = .next (s.condMove c r v)) (hc : c = true) (hv : P v) : Writes i s r P := by
  rw [State.condMove, if_pos hc] at h
  exact writes_of_setReg h hv

/-- A conditional move whose condition fails is no write at all, not even of the value that the register holds. -/
theorem changesNothing_of_condMove {i : Instr} {s : State} {c : Bool} {r : Reg} {v : Word}
    (h : exec i s = .next (s.condMove c r v)) (hc : ¬ c = true) : ChangesNothing i s := by
  rwa [State.condMove, if_neg hc] at h

end Sys2Proof.Machine
end

section
/-! PROOFS. The settled statements of 43_compare_move.md. -/

namespace Sys2Proof.Proofs

open Sys2Proof.Machine

/-- Settles O24: each instruction writes the word of its condition, which is the comparison of two numbers. -/
theorem setOnCompareResults : Obligations.SetOnCompareResults := by
  refine ⟨⟨rfl, rfl, rfl, rfl, rfl, rfl⟩, fun s rD rA rB immX => ⟨?_, ?_, ?_, ?_, ?_, ?_⟩⟩
  · exact writes_of_setReg rfl (toNat_boolWord condLtU_iff)
  · exact writes_of_setReg rfl (toNat_boolWord condLtS_iff)
  · exact writes_of_setReg rfl (toNat_boolWord condGtU_iff)
  · exact writes_of_setReg rfl (toNat_boolWord condGtS_iff)
  · exact writes_of_setReg rfl (toNat_boolWord condLtU_iff)
  · exact writes_of_setReg rfl (toNat_boolWord condLtS_iff)

/-- Settles O25: each is one write of the source word, unchanged. -/
theorem moveAndLoadImmediateResults : Obligations.MoveAndLoadImmediateResults := by
  refine ⟨⟨rfl, rfl, rfl⟩, fun s rD rA immX => ⟨?_, ?_, ?_⟩⟩
  · exact writes_of_setReg rfl rfl
  · exact writes_of_setReg rfl rfl
  · exact writes_of_setReg rfl rfl

/-- Settles O26: the tests of rB for zero and for nonzero are the two cases of a conditional move. -/
theorem conditionalMoveResults : Obligations.ConditionalMoveResults := by
  refine ⟨⟨rfl, rfl, rfl, rfl⟩, fun s rD rA rB immX => ⟨?_, ?_, ?_, ?_, ?_, ?_, ?_, ?_⟩⟩
  · exact fun hz => writes_of_condMove rfl (condEq_iff.2 hz) rfl
  · exact fun hnz => changesNothing_of_condMove rfl (mt condEq_iff.1 hnz)
  · exact fun hnz => writes_of_condMove rfl (condNe_iff.2 hnz) rfl
  · exact fun hz => changesNothing_of_condMove rfl (fun hc => condNe_iff.1 hc hz)
  · exact fun hz => writes_of_condMove rfl (condEq_iff.2 hz) rfl
  · exact fun hnz => changesNothing_of_condMove rfl (mt condEq_iff.1 hnz)
  · exact fun hnz => writes_of_condMove rfl (condNe_iff.2 hnz) rfl
  · exact fun hz => changesNothing_of_condMove rfl (fun hc => condNe_iff.1 hc hz)

end Sys2Proof.Proofs
end

section
/-! PROOFS. What the load and store instructions do: the number that a load puts into its register, the bytes that a
store leaves, and the part of a faulting store that stands before the page of the fault (44_load_store.md). -/

namespace Sys2Proof

theorem leBytes_take {j n : Nat} (v : Nat) (h : j ≤ n) : (leBytes n v).take j = leBytes j v := by
  induction j generalizing n v with
  | zero => rfl
  | succ j ih =>
    obtain ⟨n, rfl⟩ := Nat.exists_eq_add_one_of_ne_zero (Nat.ne_zero_of_lt h)
    rw [leBytes, leBytes, List.take_succ_cons, ih (v / 256) (Nat.le_of_succ_le_succ h)]

end Sys2Proof

namespace Sys2Proof.Machine

/-! ### Loads -/

theorem spanValue_lt (m : Memory) (a : Addr) (n : Nat) : spanValue m a n < 256 ^ n := by
  rw [spanValue, ← leValue_range]
  simpa using leValue_lt ((List.range n).map (fun k => m.val (byteAddr a k).toNat))

/-- An instruction that is one load writes its register alone, or it draws the register's free value and records the
fault (R217, R218). -/
theorem loads_of_load {i : Instr} {s : State} {rA : Reg} {a : Addr} {n : Nat} {ext : Word → Word}
    {P : Nat → Word → Prop} (h : exec i s = .next (s.load rA a n ext))
    (hext : ∀ x, x < 256 ^ n → P x (ext (BitVec.ofNat 64 x))) : Loads i s rA a n P := by
  refine ⟨fun hread => ?_, fun k hk => ?_⟩
  · rw [load_of_readable hread] at h
    exact writes_of_setReg h (hext _ (spanValue_lt s.mem a n))
  · rw [load_of_unreadable hk] at h
    exact ⟨_, h, rfl, fun q hq => by simp [hq], ⟨rfl, fun _ => rfl⟩, .refl s, ⟨rfl, rfl⟩, rfl⟩

/-- At most eight bytes fit a register, so that a load without extension keeps their number (R25). -/
theorem loads_unsigned {i : Instr} {s : State} {rA : Reg} {a : Addr} {n : Nat} (hn : n ≤ 8)
    (h : exec i s = .next (s.load rA a n id)) : Loads i s rA a n (fun x v => v.toNat = x) := by
  refine loads_of_load h fun x hx => ?_
  have hword : x < 2 ^ 64 := hx.trans_le (Nat.pow_le_pow_right (by decide) hn)
  exact (BitVec.toNat_ofNat x 64).trans (Nat.mod_eq_of_lt hword)

/-- Sign-extension reads the loaded number modulo 2^w around 0 (R22). -/
theorem loads_signed {i : Instr} {s : State} {rA : Reg} {a : Addr} {n w : Nat} (hw : w ≤ 64)
    (h : exec i s = .next (s.load rA a n (sextN w))) :
    Loads i s rA a n (fun x v => v.toInt = Int.bmod x (2 ^ w)) := by
  refine loads_of_load h fun x _ => ?_
  rw [toInt_sextN hw, BitVec.toInt_ofNat', Int.bmod_bmod_of_dvd (Nat.pow_dvd_pow 2 hw)]

/-! ### Stores -/

/-- A span of at most one page meets two pages at most: what lies before the page of byte k is nothing, or it is the
part on the first page (R65). -/
theorem bytesBeforePage_eq {a : Addr} {n k : Nat} (hn : n ≤ 2 ^ 14) (hk : k < n) :
    bytesBeforePage a k = if k < bytesOnFirstPage a n then 0 else bytesOnFirstPage a n := by
  unfold bytesBeforePage bytesOnFirstPage
  split <;> omega

theorem store_of_unwriteable {s : State} {a : Addr} {n k : Nat} {v : Word} (h : FirstUnwriteable s.mem a n k) :
    s.store a n v = { s with mem := s.mem.writeBytes a (leBytes (bytesBeforePage a k) v.toNat) }.raise
      (.fault (byteAddr a k)) := by
  have hbytes : FirstUnwriteable s.mem a (leBytes n v.toNat).length k := by rwa [leBytes_length]
  obtain ⟨hk, -, -⟩ := h
  simp only [State.store, Memory.memWrite, storeFrom_of_unwriteable hbytes,
    leBytes_take v.toNat ((bytesBeforePage_le a k).trans hk.le)]

theorem writeBytes_sameLayout (s : State) (a : Addr) (bs : List Byte) :
    SameLayout s { s with mem := s.mem.writeBytes a bs } := by
  obtain ⟨hpages, hsbrk, hvsbrk, hend⟩ := writeBytes_layout s.mem a bs
  exact ⟨hpages, hsbrk, hvsbrk, hend, writeBytes_perm s.mem a bs⟩

/-- In a span no longer than the address space no byte of a value overwrites another one (R60). -/
theorem stored_writeBytes {s : State} {a : Addr} {n : Nat} (v : Word) (hn : n ≤ 2 ^ 32) (hw : Writeable s.mem a n) :
    Stored s { s with mem := s.mem.writeBytes a (leBytes n v.toNat) } a n v := by
  have hlen : (leBytes n v.toNat).length = n := leBytes_length n v.toNat
  obtain ⟨hlast, hother⟩ := bytesStored_writeBytes (bs := leBytes n v.toNat) (hlen.symm ▸ hw)
  rw [hlen] at hlast hother
  refine ⟨fun k hk => (hlast k hk fun j hkj hj heq => ?_).trans (leBytes_getElem? v.toNat hk), hother⟩
  exact hkj.ne' (byteAddr_inj (hj.trans_le hn) (hk.trans_le hn) heq)

/-- An instruction that is one store of at most a page writes the span, or the part of it before the page of the fault
(R65, R217, R219). -/
theorem storesOrFaults_of_store {i : Instr} {s : State} {a : Addr} {n : Nat} {v : Word} (hn : n ≤ 2 ^ 14)
    (h : exec i s = .next (s.store a n v)) : StoresOrFaults i s a n v := by
  refine ⟨fun hw => ?_, fun k hk => ?_⟩
  · rw [store_of_writeable hw] at h
    exact ⟨_, h, stored_writeBytes v (hn.trans (by decide)) hw, writeBytes_sameLayout s a _, fun _ => rfl, .refl s,
      ⟨rfl, rfl⟩, rfl, rfl⟩
  · rw [store_of_unwriteable hk] at h
    obtain ⟨hlt, hw, -⟩ := hk
    have hbefore : bytesBeforePage a k ≤ k := bytesBeforePage_le a k
    rw [← bytesBeforePage_eq hn hlt]
    exact ⟨_, h, rfl, stored_writeBytes v (by omega) (hw.mono hbefore), writeBytes_sameLayout s a _, fun _ => rfl,
      .refl s, ⟨rfl, rfl⟩, rfl⟩

end Sys2Proof.Machine
end

section
/-! PROOFS. The settled statements of 44_load_store.md. -/

namespace Sys2Proof.Proofs

open Sys2Proof.Machine

/-- Settles O28: each instruction is one load, and its extension says which number the loaded bytes become. -/
theorem absoluteLoadResults : Obligations.AbsoluteLoadResults := by
  refine ⟨⟨rfl, rfl, rfl, rfl, rfl, rfl, rfl⟩, fun s rA immX => ⟨?_, ?_, ?_, ?_, ?_, ?_, ?_⟩⟩
  · exact loads_unsigned (by decide) rfl
  · exact loads_signed (by decide) rfl
  · exact loads_unsigned (by decide) rfl
  · exact loads_signed (by decide) rfl
  · exact loads_unsigned (by decide) rfl
  · exact loads_signed (by decide) rfl
  · exact loads_unsigned (by decide) rfl

/-- Settles O29: the same loads at an address read from the base register before the destination is written. -/
theorem indirectLoadResults : Obligations.IndirectLoadResults := by
  refine ⟨⟨rfl, rfl, rfl, rfl, rfl, rfl, rfl⟩, fun s rA rB immX => ⟨?_, ?_, ?_, ?_, ?_, ?_, ?_⟩⟩
  · exact loads_unsigned (by decide) rfl
  · exact loads_signed (by decide) rfl
  · exact loads_unsigned (by decide) rfl
  · exact loads_signed (by decide) rfl
  · exact loads_unsigned (by decide) rfl
  · exact loads_signed (by decide) rfl
  · exact loads_unsigned (by decide) rfl

/-- Settles O30: each instruction is one store of at most eight bytes, so that it meets two pages at most. -/
theorem registerStoreResults : Obligations.RegisterStoreResults := by
  refine ⟨⟨rfl, rfl, rfl, rfl, rfl, rfl, rfl, rfl⟩, fun s rA rB immX => ⟨?_, ?_, ?_, ?_, ?_, ?_, ?_, ?_⟩⟩
  · exact storesOrFaults_of_store (by decide) rfl
  · exact storesOrFaults_of_store (by decide) rfl
  · exact storesOrFaults_of_store (by decide) rfl
  · exact storesOrFaults_of_store (by decide) rfl
  · exact storesOrFaults_of_store (by decide) rfl
  · exact storesOrFaults_of_store (by decide) rfl
  · exact storesOrFaults_of_store (by decide) rfl
  · exact storesOrFaults_of_store (by decide) rfl

/-- Settles O31: the same stores with the second immediate as the value. -/
theorem immediateStoreResults : Obligations.ImmediateStoreResults := by
  refine ⟨⟨rfl, rfl, rfl, rfl, rfl, rfl, rfl, rfl⟩, fun s rA immX immY => ⟨?_, ?_, ?_, ?_, ?_, ?_, ?_, ?_⟩⟩
  · exact storesOrFaults_of_store (by decide) rfl
  · exact storesOrFaults_of_store (by decide) rfl
  · exact storesOrFaults_of_store (by decide) rfl
  · exact storesOrFaults_of_store (by decide) rfl
  · exact storesOrFaults_of_store (by decide) rfl
  · exact storesOrFaults_of_store (by decide) rfl
  · exact storesOrFaults_of_store (by decide) rfl
  · exact storesOrFaults_of_store (by decide) rfl

end Sys2Proof.Proofs
end

section
/-! PROOFS. What a control transfer leaves: the record of a branch and of a dynamic jump, that both change the record
alone, and the step of a fallthrough (45_control.md R251 to R255). -/

namespace Sys2Proof.Machine

/-! ### Conditions -/

@[simp] theorem condLeU_iff {a b : Word} : condLeU a b = true ↔ a.toNat ≤ b.toNat := decide_eq_true_iff

@[simp] theorem condGeU_iff {a b : Word} : condGeU a b = true ↔ a.toNat ≥ b.toNat := decide_eq_true_iff

@[simp] theorem condLeS_iff {a b : Word} : condLeS a b = true ↔ a.toInt ≤ b.toInt := decide_eq_true_iff

@[simp] theorem condGeS_iff {a b : Word} : condGeS a b = true ↔ a.toInt ≥ b.toInt := decide_eq_true_iff

/-! ### Frames -/

theorem SameButResult.refl (s : State) : SameButResult s s :=
  ⟨fun _ => rfl, ⟨rfl, fun _ => rfl⟩, .refl s, ⟨rfl, rfl⟩, rfl⟩

theorem jumpTo_frame (s : State) (t : Addr) : SameButResult s (s.jumpTo t) := SameButResult.refl s

theorem branch_frame (s : State) (t : Addr) (c : Bool) : SameButResult s (s.branch t c) := by
  rcases branch_cases s t c with ⟨-, h⟩ | ⟨-, -, h⟩ | ⟨-, -, h⟩ <;> rw [h]
  · exact .refl s
  · exact jumpTo_frame s t
  · exact raise_frame s .panic

theorem djump_frame (s : State) (a : Addr) : SameButResult s (s.djump a) := by
  rcases djump_cases s a with ⟨-, h⟩ | h | ⟨t, -, -, h⟩ <;> rw [h]
  · exact raise_frame s .halt
  · exact raise_frame s .panic
  · exact jumpTo_frame s t

/-- What stands after a register write and a transfer: the written value, whatever the transfer records (R258, R259). -/
theorem setReg_transfer_frame {s t : State} {r : Reg} {v : Word} (h : SameButResult (s.setReg r v) t) :
    t.reg r = v ∧ SameRegsBut s t r ∧ SameMemory s t ∧ SameDriver s t ∧ SameProgram s t ∧
      t.freeCount = s.freeCount := by
  obtain ⟨hregs, hmem, hdriver, hprogram, hfree⟩ := h
  exact ⟨(hregs r).trans (reg_setReg_self s r v), fun q hq => (hregs q).trans (reg_setReg_other s v hq), hmem, hdriver,
    hprogram, hfree⟩

/-! ### Branches -/

theorem isBlockStart_iff (s : State) (t : Addr) : s.isBlockStart t = true ↔ t.toNat ∈ s.blocks := List.contains_iff_mem

/-- The record of a taken branch (R251). -/
theorem branch_taken_result (s : State) (t : Addr) :
    (t.toNat ∈ s.blocks → (s.branch t true).result = jumpRecord t) ∧
      (t.toNat ∉ s.blocks → (s.branch t true).result = panicRecord) := by
  rw [← isBlockStart_iff]
  rcases branch_cases s t true with ⟨hc, -⟩ | ⟨-, hstart, h⟩ | ⟨-, hstart, h⟩
  · exact absurd hc (by decide)
  · exact ⟨fun _ => congrArg State.result h, fun hn => absurd hstart hn⟩
  · exact ⟨fun hs => absurd (hs.symm.trans hstart) (by decide), fun _ => congrArg State.result h⟩

/-- An instruction that always branches records its target or PANIC, and nothing else changes (R251). -/
theorem records_of_branch_taken {i : Instr} {s : State} {target : Addr} (h : exec i s = .next (s.branch target true)) :
    (target.toNat ∈ s.blocks → Records i s (jumpRecord target)) ∧
      (target.toNat ∉ s.blocks → Records i s panicRecord) := by
  obtain ⟨hjump, hpanic⟩ := branch_taken_result s target
  exact ⟨fun hin => ⟨_, h, hjump hin, branch_frame s target true⟩,
    fun hout => ⟨_, h, hpanic hout, branch_frame s target true⟩⟩

/-- An instruction that branches where a test answers true branches where what the test decides holds. -/
theorem branchesIf_of_branch {i : Instr} {s : State} {target : Addr} {c : Bool} {p : Prop}
    (h : exec i s = .next (s.branch target c)) (hc : c = true ↔ p) : BranchesIf i s target p := by
  cases c with
  | false => exact ⟨fun _ => h, fun hp => absurd (hc.2 hp) (by decide), fun hp => absurd (hc.2 hp) (by decide)⟩
  | true =>
    obtain ⟨hjump, hpanic⟩ := records_of_branch_taken h
    exact ⟨fun hp => absurd (hc.1 rfl) hp, fun _ => hjump, fun _ => hpanic⟩

/-! ### Dynamic jumps -/

theorem eq_haltAddress_iff (a : Addr) : a = Config.haltAddress ↔ a.toNat = 0xFFFF0000 :=
  BitVec.toNat_inj.symm

theorem djump_of_halt {s : State} {a : Addr} (h : a.toNat = 0xFFFF0000) : s.djump a = s.raise .halt :=
  if_pos ((eq_haltAddress_iff a).2 h)

theorem djump_of_misaligned {s : State} {a : Addr} (hhalt : a.toNat ≠ 0xFFFF0000) (h : a.toNat = 0 ∨ a.toNat % 2 = 1) :
    s.djump a = s.raise .panic := by
  rw [State.djump, if_neg (mt (eq_haltAddress_iff a).1 hhalt), if_pos]
  rw [eq_zero_iff_toNat, Config.jumpAlign]
  omega

/-- At an aligned address a dynamic jump is a branch to the table's entry, or PANIC where there is none (R121, R252). -/
theorem djump_of_aligned {s : State} {a : Addr} (hhalt : a.toNat ≠ 0xFFFF0000) (hzero : a.toNat ≠ 0)
    (heven : a.toNat % 2 = 0) :
    s.djump a = (s.prog.jumpTable[a.toNat / 2 - 1]?).elim (s.raise .panic) (fun t => s.branch t true) := by
  rw [State.djump, if_neg (mt (eq_haltAddress_iff a).1 hhalt), if_neg]
  · rw [State.jumpEntry, Config.jumpAlign]
    cases s.prog.jumpTable[a.toNat / 2 - 1]? <;> rfl
  · rw [eq_zero_iff_toNat, Config.jumpAlign]
    omega

/-- The record of a dynamic jump (R252). -/
theorem djump_result (s : State) (a : Addr) : DynamicJumpRecord s a (s.djump a).result := by
  refine ⟨fun hhalt => ?_, fun hhalt hbad => ?_, fun hhalt hzero heven => ⟨fun hpast => ?_, fun hin => ?_⟩⟩
  · exact congrArg State.result (djump_of_halt hhalt)
  · exact congrArg State.result (djump_of_misaligned hhalt hbad)
  · rw [djump_of_aligned hhalt hzero heven, List.getElem?_eq_none hpast]
    rfl
  · rw [djump_of_aligned hhalt hzero heven, List.getElem?_eq_getElem hin]
    exact branch_taken_result s _

/-! ### Fallthrough -/

/-- A fallthrough at pc charges its gas unit and ends the step OK at the next instruction (R255). -/
theorem step_of_decode_fallthrough {s : State} {l : Nat} (hs : Runnable s) (hgas : 1 ≤ s.gas.toNat)
    (hdecode : decode s.prog s.pc = (.fallthrough, l)) :
    ∃ t, step s = .next t ∧ t.status = .ok ∧ t.exitParam = none ∧ t.pc.toNat = (s.pc.toNat + 1 + l) % 2 ^ 32 ∧
      t.gas.toNat + 1 = s.gas.toNat ∧ SameRegs s t ∧ SameMemory s t ∧ SameProgram s t := by
  have hstep := step_of_decode hs hgas hdecode rfl
  rw [commit_of_empty l rfl] at hstep
  have hcharged : s.resume.chargeGas.1.gas.toNat + 1 = s.gas.toNat := by
    rw [chargeGas_gas, resume_gas, Nat.sub_add_cancel hgas]
  exact ⟨_, hstep, rfl, rfl, nextPc_toNat s l, hcharged, fun _ => rfl, ⟨rfl, fun _ => rfl⟩, rfl, rfl⟩

end Sys2Proof.Machine
end

section
/-! PROOFS. The settled statements of 45_control.md. -/

namespace Sys2Proof.Proofs

open Sys2Proof.Machine

/-- Settles O32: each instruction is one branch, and its test decides the comparison of the register and immediate. -/
theorem branchImmediateResults : Obligations.BranchImmediateResults := by
  refine ⟨⟨rfl, rfl, rfl, rfl, rfl, rfl, rfl, rfl, rfl, rfl⟩, fun s rA immX target =>
    ⟨?_, ?_, ?_, ?_, ?_, ?_, ?_, ?_, ?_, ?_⟩⟩
  · exact branchesIf_of_branch rfl condEq_iff
  · exact branchesIf_of_branch rfl condNe_iff
  · exact branchesIf_of_branch rfl condLtU_iff
  · exact branchesIf_of_branch rfl condLeU_iff
  · exact branchesIf_of_branch rfl condGeU_iff
  · exact branchesIf_of_branch rfl condGtU_iff
  · exact branchesIf_of_branch rfl condLtS_iff
  · exact branchesIf_of_branch rfl condLeS_iff
  · exact branchesIf_of_branch rfl condGeS_iff
  · exact branchesIf_of_branch rfl condGtS_iff

/-- Settles O33: the same branches with a second register in place of the immediate. -/
theorem branchRegisterResults : Obligations.BranchRegisterResults := by
  refine ⟨⟨rfl, rfl, rfl, rfl, rfl, rfl⟩, fun s rA rB target => ⟨?_, ?_, ?_, ?_, ?_, ?_⟩⟩
  · exact branchesIf_of_branch rfl condEq_iff
  · exact branchesIf_of_branch rfl condNe_iff
  · exact branchesIf_of_branch rfl condLtU_iff
  · exact branchesIf_of_branch rfl condLtS_iff
  · exact branchesIf_of_branch rfl condGeU_iff
  · exact branchesIf_of_branch rfl condGeS_iff

/-- Settles O34: both are taken branches, and the one after a register write keeps the written value in both cases. -/
theorem jumpResults : Obligations.JumpResults := by
  refine ⟨⟨rfl, rfl⟩, fun s rA immX target => ?_⟩
  obtain ⟨hjump, hpanic⟩ := records_of_branch_taken (i := .jump target) (s := s) rfl
  obtain ⟨htarget, hnone⟩ := branch_taken_result (s.setReg rA immX) target
  exact ⟨hjump, hpanic, _, rfl, htarget, hnone, setReg_transfer_frame (branch_frame _ target true)⟩

/-- Settles O35: both are one dynamic jump; the write before it touches neither the address nor the table. -/
theorem dynamicJumpResults : Obligations.DynamicJumpResults := by
  refine ⟨⟨rfl, rfl⟩, fun s rA rB immX immY => ⟨?_, ?_⟩⟩
  · exact ⟨_, rfl, djump_result s _, djump_frame s _⟩
  · exact ⟨_, rfl, djump_result (s.setReg rA immX) _, setReg_transfer_frame (djump_frame _ _)⟩

/-- Settles O36: the operation is one raise or nothing, and the step commits that record. -/
theorem trapAndFallthroughResults : Obligations.TrapAndFallthroughResults := by
  refine ⟨⟨rfl, rfl⟩, fun s => ⟨⟨_, rfl, rfl, raise_frame s .panic⟩, rfl, fun hs hgas => ⟨fun h => ?_, fun h => ?_⟩⟩⟩
  · exact step_of_decode_trap hs hgas (Prod.ext h rfl)
  · exact step_of_decode_fallthrough hs hgas (Prod.ext h rfl)

end Sys2Proof.Proofs
end

section
/-! PROOFS. Who raises Host: the record of ecalli, that no other instruction asks for a host call, and the steps that end
in HOST (46_system.md R276, R278). -/

namespace Sys2Proof.Machine

/-! ### Records without a host call -/

/-- The record asks for no host call. -/
def State.NoHostCall (s : State) : Prop := ∀ n, s.result.kind ≠ some (.host n)

theorem noHostCall_of_kind_none {s : State} (h : s.result.kind = none) : s.NoHostCall := fun n hn =>
  absurd (h.symm.trans hn) (by simp)

theorem noHostCall_raise (s : State) {k : ExitKind} (hk : ∀ n, k ≠ .host n) : (s.raise k).NoHostCall := fun n hn =>
  hk n (Option.some.inj hn)

theorem noHostCall_panic (s : State) : (s.raise .panic).NoHostCall := noHostCall_raise s (by simp)

theorem noHostCall_fault (s : State) (a : Addr) : (s.raise (.fault a)).NoHostCall := noHostCall_raise s (by simp)

theorem djump_noHostCall (s : State) (a : Addr) : (s.djump a).NoHostCall := by
  rcases djump_cases s a with ⟨-, h⟩ | h | ⟨t, -, -, h⟩ <;> rw [h]
  · exact noHostCall_raise s (by simp)
  · exact noHostCall_panic s
  · exact noHostCall_of_kind_none rfl

section
variable {s : State} (hs : s.NoHostCall)
include hs

theorem condMove_noHostCall (c : Bool) (r : Reg) (v : Word) : (s.condMove c r v).NoHostCall := by
  cases c <;> exact hs

theorem load_noHostCall (r : Reg) (a : Addr) (n : Nat) (ext : Word → Word) : (s.load r a n ext).NoHostCall := by
  rcases load_cases s r a n ext with ⟨v, h⟩ | ⟨f, h⟩ <;> rw [h]
  · exact hs
  · exact noHostCall_fault _ f

theorem store_noHostCall (a : Addr) (n : Nat) (v : Word) : (s.store a n v).NoHostCall := by
  obtain ⟨k, -, -, h | ⟨f, h⟩⟩ := store_cases s a n v <;> rw [h]
  · exact hs
  · exact noHostCall_fault _ f

theorem branch_noHostCall (t : Addr) (c : Bool) : (s.branch t c).NoHostCall := by
  rcases branch_cases s t c with ⟨-, h⟩ | ⟨-, -, h⟩ | ⟨-, -, h⟩ <;> rw [h]
  · exact hs
  · exact noHostCall_of_kind_none rfl
  · exact noHostCall_panic s

theorem sbrkWith_noHostCall (p : SbrkOomPolicy) (rD rA : Reg) : (s.sbrkWith p rD rA).NoHostCall := by
  rcases sbrkWith_cases s p rD rA with ⟨prev, m, -, -, h⟩ | ⟨-, h | h⟩ <;> rw [h]
  · exact hs
  · exact hs
  · exact noHostCall_panic s

/-- Every instruction but ecalli leaves no host call in a record that held none (R276, R278). -/
theorem ecalli_or_exec_noHostCall (i : Instr) :
    (∃ immX, i = .ecalli immX) ∨ ∃ t, exec i s = .next t ∧ t.NoHostCall := by
  cases i with
  | ecalli immX => exact .inl ⟨immX, rfl⟩
  | trap => exact .inr ⟨_, rfl, noHostCall_panic s⟩
  | fallthrough => exact .inr ⟨_, rfl, hs⟩
  | sbrk => exact .inr ⟨_, rfl, sbrkWith_noHostCall hs _ _ _⟩
  | jump | branchEqImm | branchNeImm | branchLtUImm | branchLeUImm | branchGeUImm | branchGtUImm | branchLtSImm
  | branchLeSImm | branchGeSImm | branchGtSImm | branchEq | branchNe | branchLtU | branchLtS | branchGeU | branchGeS =>
    exact .inr ⟨_, rfl, branch_noHostCall hs _ _⟩
  | loadImmJump rA immX => exact .inr ⟨_, rfl, branch_noHostCall (s := s.setReg rA immX) hs _ _⟩
  | jumpInd | loadImmJumpInd => exact .inr ⟨_, rfl, djump_noHostCall _ _⟩
  | loadU8 | loadI8 | loadU16 | loadI16 | loadU32 | loadI32 | loadU64 | loadIndU8 | loadIndI8 | loadIndU16 | loadIndI16
  | loadIndU32 | loadIndI32 | loadIndU64 => exact .inr ⟨_, rfl, load_noHostCall hs _ _ _ _⟩
  | storeU8 | storeU16 | storeU32 | storeU64 | storeIndU8 | storeIndU16 | storeIndU32 | storeIndU64 | storeImmU8
  | storeImmU16 | storeImmU32 | storeImmU64 | storeImmIndU8 | storeImmIndU16 | storeImmIndU32 | storeImmIndU64 =>
    exact .inr ⟨_, rfl, store_noHostCall hs _ _ _⟩
  | cmovIz | cmovNz | cmovIzImm | cmovNzImm => exact .inr ⟨_, rfl, condMove_noHostCall hs _ _ _⟩
  | _ => exact .inr ⟨_, rfl, hs⟩

end

/-! ### ecalli -/

theorem u32_eq_ofNat (v : Word) : u32 v = BitVec.ofNat 32 v.toNat :=
  BitVec.eq_of_toNat_eq (by rw [toNat_u32, BitVec.toNat_ofNat])

theorem exec_ecalli (immX : Word) (s : State) :
    exec (.ecalli immX) s = .next (s.raise (.host (BitVec.ofNat 32 immX.toNat))) := by
  rw [← u32_eq_ofNat]
  rfl

/-- An instruction that puts a host call into a record that held none is ecalli, and the index is its immediate's. -/
theorem eq_ecalli_of_host {i : Instr} {s t : State} {n : BitVec 32} (h : exec i s = .next t) (hs : s.NoHostCall)
    (hn : t.result.kind = some (.host n)) : ∃ immX, i = .ecalli immX ∧ n = BitVec.ofNat 32 immX.toNat := by
  rcases ecalli_or_exec_noHostCall hs i with ⟨immX, rfl⟩ | ⟨u, hu, hnone⟩
  · obtain rfl := Host.Outcome.next.inj ((exec_ecalli immX s).symm.trans h)
    exact ⟨immX, rfl, (ExitKind.host.inj (Option.some.inj hn)).symm⟩
  · obtain rfl : u = t := Host.Outcome.next.inj (hu.symm.trans h)
    exact absurd hn (hnone n)

/-! ### Steps that end in HOST -/

/-- An ecalli at pc charges its gas unit and ends the step in HOST at the next instruction, with its index (R278). -/
theorem step_of_decode_ecalli {s : State} {immX : Word} {l : Nat} (hs : Runnable s) (hgas : 1 ≤ s.gas.toNat)
    (hdecode : decode s.prog s.pc = (.ecalli immX, l)) :
    ∃ t, step s = .next t ∧ t.status = .host ∧ t.exitParam = some (BitVec.ofNat 32 immX.toNat) ∧
      t.pc.toNat = (s.pc.toNat + 1 + l) % 2 ^ 32 ∧ t.gas.toNat + 1 = s.gas.toNat ∧ SameRegs s t ∧ SameMemory s t ∧
      SameProgram s t := by
  have hstep := step_of_decode hs hgas hdecode (exec_ecalli immX _)
  rw [commit_of_kind l rfl] at hstep
  have hcharged : s.resume.chargeGas.1.gas.toNat + 1 = s.gas.toNat := by
    rw [chargeGas_gas, resume_gas, Nat.sub_add_cancel hgas]
  exact ⟨_, hstep, rfl, rfl, nextPc_toNat s l, hcharged, fun _ => rfl, ⟨rfl, fun _ => rfl⟩, rfl, rfl⟩

/-- A commit ends in HOST only where the record asks for a host call, and the index becomes EXIT_PARAM (R113). -/
theorem host_of_commit_status {s : State} {l : Nat} (h : (s.commit l).status = .host) :
    ∃ n, s.result.kind = some (.host n) ∧ (s.commit l).exitParam = some n := by
  rcases commit_cases s l with ⟨k, hk, heq⟩ | ⟨a, -, heq⟩ | ⟨-, heq⟩ <;> rw [heq] at h ⊢
  · cases k with
    | host n => exact ⟨n, hk, rfl⟩
    | halt | panic | fault => exact absurd h (by simp [State.takeExit])
  · exact absurd h (by simp)
  · exact absurd h (by simp)

/-- A step ends in HOST only by an ecalli at pc, whose index it leaves: the record is empty before the operation, and
neither a final status nor the end of gas is HOST (R109, R111, R276). -/
theorem ecalli_of_step_host {s t : State} (h : step s = .next t) (hhost : t.status = .host) :
    ∃ immX, (decode s.prog s.pc).1 = .ecalli immX ∧ t.exitParam = some (BitVec.ofNat 32 immX.toNat) := by
  rcases step_cases h with ⟨hfinal, rfl⟩ | ⟨-, -, rfl⟩ | ⟨-, -, u, hexec, rfl⟩
  · exact absurd hfinal (by simp [hhost, Status.isFinal])
  · exact absurd hhost (by simp)
  · obtain ⟨n, hkind, hparam⟩ := host_of_commit_status hhost
    obtain ⟨immX, hdecode, rfl⟩ := eq_ecalli_of_host hexec (noHostCall_of_kind_none rfl) hkind
    exact ⟨immX, hdecode, hparam⟩

end Sys2Proof.Machine
end

section
/-! PROOFS. The settled statement of 46_system.md about ecalli. -/

namespace Sys2Proof.Proofs

open Sys2Proof.Machine

/-- Settles O37: ecalli is one raise that the step commits; in a record that starts empty no other instruction leaves
a host index, and STATUS HOST is a pause. -/
theorem ecalliResult : Obligations.EcalliResult := by
  refine ⟨rfl, fun s => ⟨fun immX => ?_, fun immX hs hgas h => ?_, fun t hstep hhost => ?_⟩⟩
  · exact ⟨_, exec_ecalli immX s, rfl, raise_frame s _⟩
  · exact step_of_decode_ecalli hs hgas (Prod.ext h rfl)
  · obtain ⟨immX, hdecode, hparam⟩ := ecalli_of_step_host hstep hhost
    exact ⟨immX, hdecode, hparam, (hostMayAccess_iff t).2 (.inl (by simp [hhost]))⟩

end Sys2Proof.Proofs
end

section
/-! PROOFS. What the host does outside a step: the gas counter as a number, and the one state that every accepted reset
leaves (60_exceptions.md, 70_reset_and_hazards.md). -/

namespace Sys2Proof.Machine

/-! ### The gas counter -/

theorem gasTake_of_lt {s : State} {c : Word} (h : s.gas.toNat < c.toNat) :
    s.gasTake c = ({ s with gas := 0#64 }, true) := by
  rcases gasSub_cases s.gas c with ⟨-, hsub⟩ | ⟨hle, -⟩
  · rw [State.gasTake, hsub]
  · exact absurd h hle.not_gt

theorem gasTake_of_le {s : State} {c : Word} (h : c.toNat ≤ s.gas.toNat) :
    s.gasTake c = ({ s with gas := s.gas - c }, false) := by
  rcases gasSub_cases s.gas c with ⟨hlt, -⟩ | ⟨-, hsub⟩
  · exact absurd hlt h.not_gt
  · rw [State.gasTake, hsub]

theorem gasAdd_of_le {s : State} {c : Word} (h : s.gas.toNat + c.toNat ≤ Config.gasMax) :
    s.gasAdd c = .next { s with gas := s.gas + c } := if_pos h

/-- An amount up to GAS_MAX fits the counter (R44, R301). -/
theorem toNat_ofNat_of_le_gasMax {n : Nat} (h : n ≤ Config.gasMax) : (BitVec.ofNat 64 n).toNat = n :=
  (BitVec.toNat_ofNat n 64).trans (Nat.mod_eq_of_lt (Nat.lt_of_le_pred (by decide) h))

theorem toNat_add_of_le_gasMax {a b : Word} (h : a.toNat + b.toNat ≤ Config.gasMax) :
    (a + b).toNat = a.toNat + b.toNat :=
  BitVec.toNat_add_of_lt (Nat.lt_of_le_pred (by decide) h)

/-! ### Reset -/

/-- The state that an accepted reset leaves (R301); of the state before it, only the free-value counter goes on
(log 4). -/
def State.loaded (freeCount : Nat) (p : Program) (initialPC initialGas : Nat) (regs : Option (Vector Word 13))
    (mem : Option Memory) : State where
  regs := regs.getD (Vector.replicate 13 0#64)
  pc := BitVec.ofNat 32 initialPC
  gas := BitVec.ofNat 64 initialGas
  status := .ok
  exitParam := none
  mem := mem.getD Memory.fresh
  prog := p
  blocks := p.basicBlocks
  result := OpResult.empty
  started := false
  freeCount := freeCount

section
variable {s t : State} {p : Program} {initialPC initialGas : Nat} {regs : Option (Vector Word 13)} {mem : Option Memory}

/-- A reset refuses a mask of another length before it looks at anything else (R302). -/
theorem hostReset_of_maskLength (h : p.mask.length ≠ p.code.length) :
    s.hostReset p initialPC initialGas regs mem = .refused .maskLength := if_pos h

/-- Reset completes for an accepted program and gas that fits, and for nothing else (R301, R302). -/
theorem hostReset_eq_next_iff :
    s.hostReset p initialPC initialGas regs mem = .next t ↔
      programWf p ∧ initialGas ≤ Config.gasMax ∧ State.loaded s.freeCount p initialPC initialGas regs mem = t := by
  unfold State.hostReset
  split
  next hmask => exact iff_of_false nofun fun ⟨⟨hlen, _⟩, _⟩ => hmask hlen
  next hmask =>
    split
    next hcode => exact iff_of_false nofun fun ⟨⟨_, hlt⟩, _⟩ => hlt.not_ge hcode
    next hcode =>
      split
      next hgas => exact iff_of_false nofun fun ⟨_, hle, _⟩ => hle.not_gt hgas
      next hgas =>
        have hp : programWf p := ⟨not_not.1 hmask, Nat.lt_of_not_le hcode⟩
        exact ⟨fun h => ⟨hp, Nat.le_of_not_lt hgas, Host.Outcome.next.inj h⟩, fun ⟨_, _, h⟩ => congrArg _ h⟩

theorem loaded_reg (freeCount : Nat) (r : Reg) :
    (State.loaded freeCount p initialPC initialGas none mem).reg r = 0#64 := reset_reg r

/-- A memory supplied in canonical form, or the fresh one, is canonical (R45, R301). -/
theorem getD_fresh_wf (h : ∀ m, mem = some m → m.wf) : (mem.getD Memory.fresh).wf := by
  cases mem with
  | none => exact fresh_wf
  | some m => exact h m rfl

theorem loaded_inv {freeCount : Nat} (hp : programWf p) (hmem : ∀ m, mem = some m → m.wf) :
    (State.loaded freeCount p initialPC initialGas regs mem).Inv :=
  ⟨getD_fresh_wf hmem, hp, rfl, ⟨fun hhost => (nomatch hhost), fun _ => rfl⟩, .inl rfl, fun _ => rfl⟩

end

/-- The machine right after reset is a loaded state: the empty program, no registers and no memory (R303). -/
theorem reset_eq_loaded :
    State.reset = State.loaded 0 { code := [], mask := [], jumpTable := [] } 0 0 none none := rfl

end Sys2Proof.Machine
end

section
/-! PROOFS. The settled statements of 60_exceptions.md and 70_reset_and_hazards.md about the gas counter and reset. -/

namespace Sys2Proof.Proofs

open Sys2Proof.Machine

/-- Settles O59: neither the subtraction nor the addition wraps where the statement gives its number. -/
theorem gasCounterOperations : Obligations.GasCounterOperations := by
  intro s c
  refine ⟨rfl, gasTake_of_lt, fun hle => ?_, fun hfits => ?_⟩
  · exact ⟨_, gasTake_of_le hle, BitVec.toNat_sub_of_le hle, rfl⟩
  · exact ⟨_, gasAdd_of_le hfits, toNat_add_of_le_gasMax hfits, rfl⟩

/-- Settles O57: an accepted reset leaves the loaded state, whatever the state before it. -/
theorem hostResetLoadsItsArguments : Obligations.HostResetLoadsItsArguments := by
  intro s p initialPC initialGas regs mem
  refine ⟨fun hp hgas => ?_, hostReset_of_maskLength⟩
  refine ⟨_, hostReset_eq_next_iff.2 ⟨hp, hgas, rfl⟩, rfl, rfl, BitVec.toNat_ofNat _ _, toNat_ofNat_of_le_gasMax hgas,
    rfl, rfl, rfl, ?_, ?_, ?_, ?_⟩
  · rintro rs rfl
    rfl
  · rintro rfl r
    exact loaded_reg _ r
  · rintro m rfl
    rfl
  · rintro rfl
    rfl

/-- Settles O49: both resets leave a loaded state, and a loaded state meets the invariant. -/
theorem resetMeetsTheInvariant : Obligations.ResetMeetsTheInvariant := by
  refine ⟨?_, fun s t p initialPC initialGas regs mem hmem h => ?_⟩
  · rw [reset_eq_loaded]
    exact loaded_inv (by decide) (fun _ hsome => (nomatch hsome))
  · obtain ⟨hp, -, rfl⟩ := hostReset_eq_next_iff.1 h
    exact loaded_inv hp hmem

end Sys2Proof.Proofs
end
